-- ==== Sys2Proof/Word.lean ====
section
/-! DEFINITION. The values the block works on: 32-bit Words, 12-bit immediates, 24-bit command words, 4-bit
flag sets, and the four condition flags as a record (spec/00_scope.md R7 to R9, spec/10_state.md R20). -/

namespace Sys2Proof

/-- A 32-bit value (R7). Its unsigned reading `uint` is `toNat`, its signed reading `sint` is `toInt` (R9). -/
abbrev Word := BitVec 32

/-- A 12-bit encoded immediate (R7, R70). -/
abbrev Imm12 := BitVec 12

/-- A 24-bit command word (R60). -/
abbrev Cmd := BitVec 24

/-- A 4-flag set carried as a 4-bit value, N at bit 3 down to V at bit 0 (R22). -/
abbrev FlagBits := BitVec 4

/-- Four Flags, each exactly 0 or 1 (R20). The register `NZCV` is one of these, and so is a candidate set. -/
structure Nzcv where
  n : Bool
  z : Bool
  c : Bool
  v : Bool
  deriving DecidableEq, Repr

/-- `trunc_32` of a mathematical integer, a negative one included (R9). -/
def trunc32 (i : Int) : Word := BitVec.ofInt 32 i

/-- `trunc_64` of a mathematical integer (R9). -/
def trunc64 (i : Int) : BitVec 64 := BitVec.ofInt 64 i

end Sys2Proof
end

