-- ==== Sys2Proof/Config.lean ====
section
/-! DEFINITION. The parameters the spec leaves OPEN (spec/00_scope.md R7, the end of spec/92_eei_decisions.md).
A model takes them as arguments: they are one field of the state, `State.params`, which no command changes, so
that every statement holds for every setting. The fixed parameters of R7 are widths of types and bounds of
checks, written where they are used. -/

namespace Sys2Proof

/-- `ERROR_DISPOSITION`: what the caller does after an error, "either an emulation-halting internal error or …
an emulated UNDEFINED-instruction fault" (R247, D23). It belongs to the caller and changes nothing in the block. -/
inductive ErrorDisposition where
  /-- the caller halts the emulation: it presents no further transaction -/
  | halt
  /-- the caller raises an UNDEFINED-instruction fault in the emulated processor and goes on presenting -/
  | undefinedFault
  deriving DecidableEq, Repr

/-- The OPEN parameters, with the spec's defaults. -/
structure Params where
  /-- `RESET_NZCV`: the flags after reset (R25; D17: default `0b0000`). -/
  resetNzcv : Nzcv := ⟨false, false, false, false⟩
  /-- `MLS_REPORTS_FLAGS`: whether MLS produces a candidate set (R216; D18: default `false`). -/
  mlsReportsFlags : Bool := false
  /-- `ADR_ALIGNS_BASE`: whether the block itself clears the two low bits of the base (R192; D12: default `true`). -/
  adrAlignsBase : Bool := true
  /-- `ERROR_DISPOSITION` (R247; D23). DESIGN CHOICE: the spec gives no default (log 2). -/
  errorDisposition : ErrorDisposition := .undefinedFault
  deriving DecidableEq, Repr

end Sys2Proof
end

