-- ==== Sys2Proof/Syntax.lean ====
section
/-! DEFINITION. The 50 commands of spec/opcode_table.json, one constructor each. A constructor's arguments are the
fields of its command word and nothing else: operand values, the 12-bit immediate and the flag set to commit
travel on ports (spec/30_encoding.md R60), so they are no part of the syntax. -/

namespace Sys2Proof

/-- The closed enumeration of shift types (R69). RotateRight with a literal amount of 0 is RRX (R111). -/
inductive ShiftType where
  | logicalLeft
  | logicalRight
  | arithmeticRight
  | rotateRight
  deriving DecidableEq, Repr

/-- Container select `w` of the bit-field commands (R68): the Word on `rn` or the Imm12 on `imm12`. -/
inductive Container where
  | word
  | imm12
  deriving DecidableEq, Repr

/-- One command. `amt` is the literal shift amount, 0 to 255 in a command word (R71); `start` and `stop` are the
bounds `start` and `end` of a bit field, each 0 to 63 in a command word (R73). -/
inductive Instr where
  -- group DPR: register operand, literal shift amount (R62)
  | and (type : ShiftType) (amt : Nat)
  | eor (type : ShiftType) (amt : Nat)
  | sub (type : ShiftType) (amt : Nat)
  | rsb (type : ShiftType) (amt : Nat)
  | add (type : ShiftType) (amt : Nat)
  | adc (type : ShiftType) (amt : Nat)
  | sbc (type : ShiftType) (amt : Nat)
  | rsc (type : ShiftType) (amt : Nat)
  | orr (type : ShiftType) (amt : Nat)
  | mov (type : ShiftType) (amt : Nat)
  | bic (type : ShiftType) (amt : Nat)
  | mvn (type : ShiftType) (amt : Nat)
  -- group DPRS: register operand, register-specified shift amount (R63)
  | andRs (type : ShiftType)
  | eorRs (type : ShiftType)
  | subRs (type : ShiftType)
  | rsbRs (type : ShiftType)
  | addRs (type : ShiftType)
  | adcRs (type : ShiftType)
  | sbcRs (type : ShiftType)
  | rscRs (type : ShiftType)
  | orrRs (type : ShiftType)
  | movRs (type : ShiftType)
  | bicRs (type : ShiftType)
  | mvnRs (type : ShiftType)
  -- group DPI: immediate operand (R64)
  | iAnd
  | iEor
  | iSub
  | iRsb
  | iAdd
  | iAdc
  | iSbc
  | iRsc
  | iOrr
  | iMov
  | iBic
  | iMvn
  -- group ADR: address computation (R65)
  | adrAdd
  | adrSub
  -- group MUL: multiply and multiply-accumulate (R66)
  | mul
  | mla
  | umaal
  | mls
  | umull
  | umlal
  | smull
  | smlal
  -- group FLAG: flag commit (R67)
  | commit
  -- group BITS: bit-field accessors (R68)
  | extractBits (w : Container) (start stop : Nat)
  | writeBits (w : Container) (start stop : Nat)
  | countBits
  deriving DecidableEq, Repr

end Sys2Proof
end

