-- ==== Sys2Proof/Machine/State.lean ====
section
/-! DEFINITION. The state of one ALU block with its ports and its caller, the ways a step can stop, and reset.
The block's own state is the one register `nzcv` (spec/10_state.md R20, R29, R30). The ports are no state of the
block, but a step is a function of this type alone, so what they carry stands here; so do the caller's further
transactions and the open parameters. -/

namespace Sys2Proof.Machine

/-- The errors of one transaction (R240 to R244). -/
inductive ErrorKind where
  /-- `start > end` or `end > width`, raised by EXTRACTBITS and WRITEBITS (R241) -/
  | bitRange
  /-- a literal amount of 32 or more, raised by the 12 commands of group DPR (R242) -/
  | shiftAmountOutOfRange
  /-- a ShiftType outside the closed enumeration: kept for its code, raised by nothing (R243) -/
  | unknownShiftType
  /-- a command word that matches no row, raised by decoding (R244) -/
  | reservedCommand
  deriving DecidableEq, Repr

/-- The input ports as sampled at the start of a transaction (R41, R44). -/
structure InPorts where
  cmd : Cmd := 0
  rn : Word := 0
  rm : Word := 0
  rs : Word := 0
  ra : Word := 0
  rdhi : Word := 0
  rdlo : Word := 0
  imm12 : Imm12 := 0
  fin : FlagBits := 0
  deriving DecidableEq, Repr

/-- The output ports of the latest transaction (R42). A data output whose valid bit is 0 has no value, never a
number (R42, D22): its valid bit is whether it has one. `err` is `none` for code 0. The output `nzcv` is a view of
the register (R24). -/
structure OutPorts where
  result : Option Word := none
  resulthi : Option Word := none
  fout : Option FlagBits := none
  err : Option ErrorKind := none
  deriving DecidableEq, Repr

/-- What the caller drives a 32-bit port with: a value of its own, or a data output of the block (log 4). -/
inductive WordDrive where
  | value (v : Word)
  | result
  | resulthi
  deriving DecidableEq, Repr

/-- What the caller drives `fin` with: a set of its own, the candidate set on `fout` ("`COMMIT fin = fout`", R231),
or the stored flags shown on the output `nzcv` (R24, R230; log 4). -/
inductive FlagDrive where
  | value (v : FlagBits)
  | fout
  | nzcv
  deriving DecidableEq, Repr

/-- A transaction the caller is to present: the command word and what drives each port. A port that is not
mentioned has the value 0 (R81). -/
structure Transaction where
  cmd : Cmd
  rn : WordDrive := .value 0
  rm : WordDrive := .value 0
  rs : WordDrive := .value 0
  ra : WordDrive := .value 0
  rdhi : WordDrive := .value 0
  rdlo : WordDrive := .value 0
  imm12 : Imm12 := 0
  fin : FlagDrive := .value 0
  deriving DecidableEq, Repr

structure State where
  /-- the register `NZCV`, the block's only state (R20) -/
  nzcv : Nzcv
  /-- the output ports of the latest transaction (R42) -/
  out : OutPorts
  /-- the input ports as last sampled; every transaction samples all of them anew (R44; log 6) -/
  inp : InPorts
  /-- the transactions the caller has still to present, in order (R45, R273; log 3) -/
  pending : List Transaction
  /-- the open parameters (R7) -/
  params : Params
  deriving DecidableEq, Repr

/-- How a run stops with a fault. No command faults: an error is an output of its own transaction (log 1). -/
inductive Fault where
  /-- Raised by `step`, when the latest transaction reported the error `e` and the caller is one that halts
  (`ERROR_DISPOSITION` = `halt`): "an emulation-halting internal error" (R247). Safe: nothing follows it. -/
  | haltedByCaller (e : ErrorKind)
  deriving DecidableEq, Repr

/-- Why there is no step. -/
inductive Refusal where
  /-- Raised by an arm of `exec` for a command that has no meaning yet; no arm does. Safe. -/
  | notModelled (mnemonic : String)
  /-- Raised by `step` when the caller has issued every transaction it will issue: the run has ended and the block
  makes no step of its own (R273). Safe. -/
  | noTransaction
  /-- Raised by `step` when a port that the command reads is driven with an output that has no value: such a program
  "has no meaning (refused), which is the safe reading" (R276, U5, U11). A port that is not read never refuses. Safe. -/
  | outputHasNoValue
  /-- Raised by `System.step` when there is no block with the number asked for (R256). Safe. -/
  | noSuchBlock
  deriving DecidableEq, Repr

/-- What a step or a command answers. -/
abbrev Answer := Host.Outcome State Fault Refusal

/-- The state right after reset under given parameters (R270, R271): `NZCV` = `RESET_NZCV`, no output has a value,
no error; nothing sampled yet and nothing to present. -/
def State.resetWith (p : Params) : State where
  nzcv := p.resetNzcv
  out := {}
  inp := {}
  pending := []
  params := p

/-- The state right after reset with the parameters at their defaults (R271). -/
def State.reset : State := State.resetWith {}

end Sys2Proof.Machine
end

