-- ==== Sys2Proof/Machine/Accessors.lean ====
section
/-! DEFINITION. The bit-field accessors, the leaf layer of the core (spec/40_bitfield.md R90 to R94): pure
functions of a container of any width; the block uses 32 and 12. -/

namespace Sys2Proof.Machine

/-- The shared range check: the legal bounds are `start ≤ end ≤ width` (R91). It looks at no value (R241). -/
def checkBounds (width start stop : Nat) : Option ErrorKind :=
  if start > stop ∨ stop > width then some .bitRange else none

/-- The field `[start, stop)` of a container read as one unsigned integer (R92). -/
def fieldOf (c start stop : Nat) : Nat := c / 2 ^ start % 2 ^ (stop - start)

/-- `extractBits` (R92). -/
def extractBits {w : Nat} (c : BitVec w) (start stop : Nat) : Except ErrorKind Nat :=
  match checkBounds w start stop with
  | some e => .error e
  | none => .ok (fieldOf c.toNat start stop)

/-- `writeBits` (R93): the backing integer with the field replaced by `content` masked to the field's length. -/
def writeBits {w : Nat} (c : BitVec w) (content start stop : Nat) : Except ErrorKind Nat :=
  match checkBounds w start stop with
  | some e => .error e
  | none => .ok (c.toNat - fieldOf c.toNat start stop * 2 ^ start + content % 2 ^ (stop - start) * 2 ^ start)

/-- `countBits` (R94): the number of `i` in 0 to 31 with `v[i] = 1`. -/
def countBits (v : Word) : Nat := (List.range 32).countP fun i => v.getLsbD i

/-- The method R94 describes, "population count via repeated `value &= value-1`", with a bound on the number of
rounds. `countBits` is its value, not its iterations. -/
def kernighanCount : (rounds : Nat) → (x : Nat) → Nat
  | 0, _ => 0
  | k + 1, x => if x = 0 then 0 else 1 + kernighanCount k (x &&& (x - 1))

end Sys2Proof.Machine
end

