-- ==== Sys2Proof/Machine/Datapath.lean ====
section
/-! DEFINITION. The three primitives (spec/41_shifter_adder_expander.md R110 to R123) and the multiplier's split of
a 64-bit value (spec/44_multiply.md R210). They never read `NZCV`: a carry-in is an argument. -/

namespace Sys2Proof.Machine

/-- What the shifter and the expander produce in one step: an operand and a carry-out (R110, R122). -/
structure Shifted where
  value : Word
  carry : Bool
  deriving DecidableEq, Repr

/-- RotateRight by an amount of 1 or more: `ror32` by the amount modulo 32, the carry being bit 31 of the result
(R115, R118; a non-zero multiple of 32 is the identity, D19). -/
def rotated (x : Word) (amount : Nat) : Shifted :=
  let r := x.rotateRight (amount % 32)
  ⟨r, r.getLsbD 31⟩

/-- RRX: the carry-in enters bit 31 and bit 0 leaves (R111). -/
def rotatedExtended (x : Word) (carryIn : Bool) : Shifted :=
  ⟨(x >>> 1) ||| (if carryIn then 0x80000000#32 else 0#32), x.getLsbD 0⟩

/-- The barrel shifter `shiftC`, total for every amount (R110 to R118). -/
def shiftC (x : Word) (type : ShiftType) (amount : Nat) (carryIn : Bool) : Shifted :=
  match type with
  | .logicalLeft =>
    if amount = 0 then ⟨x, carryIn⟩
    else if amount < 32 then ⟨x <<< amount, x.getLsbD (32 - amount)⟩
    else ⟨0, false⟩
  | .logicalRight =>
    if amount = 0 then ⟨x, carryIn⟩
    else if amount < 32 then ⟨x >>> amount, x.getLsbD (amount - 1)⟩
    else ⟨0, false⟩
  | .arithmeticRight =>
    if amount = 0 then ⟨x, carryIn⟩
    else if amount < 32 then ⟨x.sshiftRight amount, x.getLsbD (amount - 1)⟩
    else ⟨if x.getLsbD 31 then 0xFFFFFFFF#32 else 0#32, x.getLsbD 31⟩
  | .rotateRight => if amount = 0 then rotatedExtended x carryIn else rotated x amount

/-- What the adder produces: sum, unsigned carry-out, signed overflow (R120). -/
structure Sum where
  result : Word
  carry : Bool
  overflow : Bool
  deriving DecidableEq, Repr

/-- `addWithCarry`: both sums exact, then narrowed and compared (R120). -/
def addWithCarry (x y : Word) (carryIn : Bool) : Sum :=
  let usum : Nat := x.toNat + y.toNat + carryIn.toNat
  let ssum : Int := x.toInt + y.toInt + carryIn.toNat
  let result : Word := BitVec.ofNat 32 usum
  ⟨result, decide (result.toNat ≠ usum), decide (result.toInt ≠ ssum)⟩

/-- ADD (R121). -/
def adderAdd (x y : Word) : Sum := addWithCarry x y false

/-- ADC (R121). -/
def adderAdc (x y : Word) (c : Bool) : Sum := addWithCarry x y c

/-- SUB: the second operand complemented, carry-in 1 (R121). -/
def adderSub (x y : Word) : Sum := addWithCarry x (~~~y) true

/-- SBC (R121). -/
def adderSbc (x y : Word) (c : Bool) : Sum := addWithCarry x (~~~y) c

/-- RSB: the first operand complemented, carry-in 1 (R121). -/
def adderRsb (x y : Word) : Sum := addWithCarry (~~~x) y true

/-- RSC (R121). -/
def adderRsc (x y : Word) (c : Bool) : Sum := addWithCarry (~~~x) y c

/-- The rotation nibble `imm12[11:8]` (R70). -/
def rotationNibble (i : Imm12) : Nat := (i.extractLsb' 8 4).toNat

/-- The base byte `imm12[7:0]`, zero-extended to 32 bits (R70). -/
def baseByte (i : Imm12) : Word := (i.extractLsb' 0 8).setWidth 32

/-- The immediate expander `processImm12` (R122). -/
def processImm12 (i : Imm12) (carryIn : Bool) : Shifted :=
  if rotationNibble i = 0 then ⟨baseByte i, carryIn⟩
  else shiftC (baseByte i) .rotateRight (2 * rotationNibble i) carryIn

/-- `p[63:32]`, the half that leaves on `resulthi` (R210). -/
def highHalf (p : BitVec 64) : Word := p.extractLsb' 32 32

/-- `p[31:0]`, the half that leaves on `result` (R210). -/
def lowHalf (p : BitVec 64) : Word := p.extractLsb' 0 32

/-- The unsigned 64-bit value `{hi, lo}` (R9). -/
def joined (hi lo : Word) : Nat := hi.toNat * 2 ^ 32 + lo.toNat

end Sys2Proof.Machine
end

