-- ==== Sys2Proof/Machine/Flags.lean ====
section
/-! DEFINITION. Packing of a 4-flag set (spec/10_state.md R22) and every flag computation of the spec
(spec/41_shifter_adder_expander.md R127, R128; spec/44_multiply.md R211). A candidate set is computed from the
result and the flags stored at the start of the transaction; "unchanged" means copied from them (D26). -/

namespace Sys2Proof.Machine

/-- A 4-flag set as a 4-bit value: N at bit 3, Z at bit 2, C at bit 1, V at bit 0 (R22). -/
def packFlags (f : Nzcv) : FlagBits :=
  BitVec.ofBool f.n ++ BitVec.ofBool f.z ++ BitVec.ofBool f.c ++ BitVec.ofBool f.v

/-- The 4-flag set of a 4-bit value (R22). -/
def unpackFlags (b : FlagBits) : Nzcv := ⟨b.getLsbD 3, b.getLsbD 2, b.getLsbD 1, b.getLsbD 0⟩

/-- `flags(result[31], (result = 0), c, v)`: N and Z of a 32-bit result with a given C and V. -/
def resultFlags (result : Word) (c v : Bool) : Nzcv := ⟨result.getLsbD 31, decide (result = 0), c, v⟩

/-- The candidate set of the bitwise class: C is the shifter's or expander's carry-out, V the stored V (R127). -/
def bitwiseFlags (result : Word) (carryOut : Bool) (stored : Nzcv) : Nzcv := resultFlags result carryOut stored.v

/-- The candidate set of the arithmetic class: C and V are the adder's (R128). -/
def arithmeticFlags (result : Word) (carry overflow : Bool) : Nzcv := resultFlags result carry overflow

/-- The candidate set of the 32-bit multiplies: the stored C and V copied (R211). -/
def flags32 (result : Word) (stored : Nzcv) : Nzcv := resultFlags result stored.c stored.v

/-- The candidate set of the 64-bit multiplies: N is bit 31 of the high half, Z says both halves are 0, the stored
C and V copied (R211). -/
def flags64 (hi lo : Word) (stored : Nzcv) : Nzcv :=
  ⟨hi.getLsbD 31, decide (hi = 0 ∧ lo = 0), stored.c, stored.v⟩

end Sys2Proof.Machine
end

