-- ==== Sys2Proof/Machine/Ops.lean ====
section
/-! DEFINITION. The named operations over the state: what a transaction answers on the output ports, how an error
is raised, the flag commit, and what an input port carries. There is no memory (spec/20_memory.md R47), no
general register (spec/10_state.md R26) and no program counter (R27) to operate on. -/

namespace Sys2Proof.Machine

/-! ## The output ports (R42) -/

/-- `rvalid`. -/
def OutPorts.rvalid (o : OutPorts) : Bool := o.result.isSome

/-- `hvalid`. -/
def OutPorts.hvalid (o : OutPorts) : Bool := o.resulthi.isSome

/-- `fvalid`. -/
def OutPorts.fvalid (o : OutPorts) : Bool := o.fout.isSome

/-- The 3-bit code of an outcome (R240). -/
def errorCode : Option ErrorKind → BitVec 3
  | none => 0
  | some .bitRange => 1
  | some .shiftAmountOutOfRange => 2
  | some .unknownShiftType => 3
  | some .reservedCommand => 4

/-- The output `nzcv`: the stored register, packed, at all times and with no side effect (R24). -/
def nzcvPort (s : State) : FlagBits := packFlags s.nzcv

/-! ## What a transaction answers -/

/-- The transaction ends with these outputs; nothing but COMMIT changes anything else (R44, R129). -/
def respond (o : OutPorts) (s : State) : State := { s with out := o }

/-- A 32-bit result and no candidate set (ADR, MLS by default, the bit-field commands). -/
def respondResult (r : Word) (s : State) : State := respond { result := some r } s

/-- A 32-bit result and its candidate set (R129, R213, R214). -/
def respondResultFlags (r : Word) (f : Nzcv) (s : State) : State :=
  respond { result := some r, fout := some (packFlags f) } s

/-- A 64-bit value on the pair of outputs and no candidate set (R210, R215). -/
def respondPair (p : BitVec 64) (s : State) : State :=
  respond { result := some (lowHalf p), resulthi := some (highHalf p) } s

/-- A 64-bit value on the pair of outputs and its candidate set `flags64` (R210, R211). -/
def respondPairFlags (p : BitVec 64) (s : State) : State :=
  respond { result := some (lowHalf p), resulthi := some (highHalf p),
            fout := some (packFlags (flags64 (highHalf p) (lowHalf p) s.nzcv)) } s

/-- RAISING AN ERROR, the one exception the block has (R245): `err` shows the error, no other output has a value,
`NZCV` and everything else is unchanged. There is no trap entry and so nothing to return from (R247): the next
transaction runs as if this one had not been issued (R246). -/
def raiseError (e : ErrorKind) (s : State) : State := respond { err := some e } s

/-- The flag commit: all four stored flags replaced at once, no output (R230). -/
def commitFlags (f : Nzcv) (s : State) : State := { s with nzcv := f, out := {} }

/-! ## What an input port carries (R41, R44) -/

/-- The value a 32-bit port is driven with; none when it is an output that has no value (R42, U5). -/
def WordDrive.sample (d : WordDrive) (s : State) : Option Word :=
  match d with
  | .value v => some v
  | .result => s.out.result
  | .resulthi => s.out.resulthi

/-- The value `fin` is driven with; none when it is `fout` and there is no candidate set (R276, U11). -/
def FlagDrive.sample (d : FlagDrive) (s : State) : Option FlagBits :=
  match d with
  | .value v => some v
  | .fout => s.out.fout
  | .nzcv => some (nzcvPort s)

/-- The state in which a transaction computes: its ports sampled, the caller's further transactions kept. -/
def present (p : InPorts) (rest : List Transaction) (s : State) : State := { s with inp := p, pending := rest }

/-- The error the caller halts for: one was reported and the caller is one that halts (R247). -/
def haltingError (s : State) : Option ErrorKind :=
  match s.params.errorDisposition with
  | .halt => s.out.err
  | .undefinedFault => none

/-- `s` with the transaction `t` to be presented next. The error of an earlier transaction is no longer shown, for
a caller that halts would present nothing after it. -/
def presentNext (t : Transaction) (s : State) : State :=
  { s with pending := t :: s.pending, out := { s.out with err := none } }

end Sys2Proof.Machine
end

