-- ==== Sys2Proof/Machine/Operands.lean ====
section
/-! DEFINITION. Every operand form of the spec: operand 2 of the data-processing commands in its three forms
(spec/41_shifter_adder_expander.md R124 to R126), the base of ADR (spec/43_dp_immediate.md R192), the 64-bit
accumulator (spec/44_multiply.md R218) and the container of a bit field (spec/30_encoding.md R68). The stored C is
the only carry a command has to offer its shifter or expander (C1). -/

namespace Sys2Proof.Machine

/-- Group DPR's own check of a literal amount (R124, R242). -/
def checkAmount (amt : Nat) : Option ErrorKind :=
  if amt ≥ 32 then some .shiftAmountOutOfRange else none

/-- Operand 2 with a literal amount, the check made (R124). -/
def literalOperand (type : ShiftType) (amt : Nat) (s : State) : Shifted := shiftC s.inp.rm type amt s.nzcv.c

/-- The register-specified amount: the low 8 bits of `rs` (R72). -/
def registerAmount (s : State) : Nat := (s.inp.rs.extractLsb' 0 8).toNat

/-- Operand 2 with a register-specified amount (R125): an amount of 0 is no shift at all, for every type. -/
def registerOperand (type : ShiftType) (s : State) : Shifted :=
  if registerAmount s = 0 then ⟨s.inp.rm, s.nzcv.c⟩ else shiftC s.inp.rm type (registerAmount s) s.nzcv.c

/-- Operand 2 from the 12-bit immediate (R126). -/
def immediateOperand (s : State) : Shifted := processImm12 s.inp.imm12 s.nzcv.c

/-- A command of group DPR: the amount check before any computation, then the command on operand 2 (R124, R248). -/
def withLiteral (type : ShiftType) (amt : Nat) (s : State) (command : Shifted → State → State) : Answer :=
  match checkAmount amt with
  | some e => .next (raiseError e s)
  | none => .next (command (literalOperand type amt s) s)

/-- A command of group DPRS: no amount is an error (R125). -/
def withRegister (type : ShiftType) (s : State) (command : Shifted → State → State) : Answer :=
  .next (command (registerOperand type s) s)

/-- A command of group DPI (R126). -/
def withImmediate (s : State) (command : Shifted → State → State) : Answer :=
  .next (command (immediateOperand s) s)

/-- The answer of a bitwise command with result `r`, whose C is the carry-out of operand 2 (R127, R129). -/
def answerBitwise (r : Word) (op2 : Shifted) (s : State) : State :=
  respondResultFlags r (bitwiseFlags r op2.carry s.nzcv) s

/-- The answer of an arithmetic command; the carry-out of operand 2 is discarded (R128, R129). -/
def answerArithmetic (a : Sum) (s : State) : State :=
  respondResultFlags a.result (arithmeticFlags a.result a.carry a.overflow) s

/-- The base of ADR: `rn` with its two low bits cleared when the block aligns it (R192). -/
def adrBase (s : State) : Word :=
  if s.params.adrAlignsBase then s.inp.rn &&& ~~~3#32 else s.inp.rn

/-- The accumulator `{rdhi, rdlo}` read as an unsigned 64-bit value (R218). -/
def accumulatorUnsigned (s : State) : Int := joined s.inp.rdhi s.inp.rdlo

/-- The accumulator `{rdhi, rdlo}` read as a signed 64-bit value (R220). -/
def accumulatorSigned (s : State) : Int :=
  if s.inp.rdhi.getLsbD 31 then (joined s.inp.rdhi s.inp.rdlo : Int) - 2 ^ 64 else joined s.inp.rdhi s.inp.rdlo

/-- The declared width of a container (R68, R90). -/
def Container.width : Container → Nat
  | .word => 32
  | .imm12 => 12

/-- `extractBits` of the selected container (R97). -/
def extractFrom (w : Container) (start stop : Nat) (s : State) : Except ErrorKind Nat :=
  match w with
  | .word => extractBits s.inp.rn start stop
  | .imm12 => extractBits s.inp.imm12 start stop

/-- `writeBits` of the selected container with the content on `rm` (R98). -/
def writeTo (w : Container) (start stop : Nat) (s : State) : Except ErrorKind Nat :=
  match w with
  | .word => writeBits s.inp.rn s.inp.rm.toNat start stop
  | .imm12 => writeBits s.inp.imm12 s.inp.rm.toNat start stop

/-- The answer of a bit-field command: the integer, which fits 32 bits, or the error (R97, R98). -/
def answerField (r : Except ErrorKind Nat) (s : State) : State :=
  match r with
  | .ok n => respondResult (BitVec.ofNat 32 n) s
  | .error e => raiseError e s

end Sys2Proof.Machine
end

