-- ==== Sys2Proof/Machine/Adr.lean ====
section
/-! DEFINITION. Group ADR: address computation (spec/43_dp_immediate.md R192 to R194). The expander's carry-out is
discarded and no flags are reported. -/

namespace Sys2Proof.Machine

/-- ADR_ADD: aligned base plus expanded immediate, modulo 2^32 (R193). -/
def execAdrAdd (s : State) : Answer :=
  .next (respondResult (trunc32 ((adrBase s).toNat + (immediateOperand s).value.toNat)) s)

/-- ADR_SUB: aligned base minus expanded immediate, modulo 2^32 (R194). -/
def execAdrSub (s : State) : Answer :=
  .next (respondResult (trunc32 ((adrBase s).toNat - (immediateOperand s).value.toNat)) s)

end Sys2Proof.Machine
end

