-- ==== Sys2Proof/Machine/BitField.lean ====
section
/-! DEFINITION. Group BITS: the bit-field accessors as commands (spec/40_bitfield.md R97 to R99). No flags are
reported; `NZCV` is neither read nor written. -/

namespace Sys2Proof.Machine

/-- EXTRACTBITS (R97). -/
def execExtractBits (w : Container) (start stop : Nat) (s : State) : Answer :=
  .next (answerField (extractFrom w start stop s) s)

/-- WRITEBITS (R98). -/
def execWriteBits (w : Container) (start stop : Nat) (s : State) : Answer :=
  .next (answerField (writeTo w start stop s) s)

/-- COUNTBITS (R99). -/
def execCountBits (s : State) : Answer := .next (respondResult (BitVec.ofNat 32 (countBits s.inp.rn)) s)

end Sys2Proof.Machine
end

