-- ==== Sys2Proof/Machine/DataProcessing.lean ====
section
/-! DEFINITION. The twelve data-processing operations on an operand 2 that has been formed, shared by the three
operand forms (spec/41_shifter_adder_expander.md R121, R127, R128). The formulas of the six bitwise operations are
those of R127's table (log 10). -/

namespace Sys2Proof.Machine

/-- AND: `rn` AND operand 2 (R127). -/
def dpAnd (op2 : Shifted) (s : State) : State := answerBitwise (s.inp.rn &&& op2.value) op2 s

/-- EOR: `rn` exclusive OR operand 2 (R127). -/
def dpEor (op2 : Shifted) (s : State) : State := answerBitwise (s.inp.rn ^^^ op2.value) op2 s

/-- SUB: `rn` minus operand 2 (R121, R128). -/
def dpSub (op2 : Shifted) (s : State) : State := answerArithmetic (adderSub s.inp.rn op2.value) s

/-- RSB: operand 2 minus `rn` (R121, R128). -/
def dpRsb (op2 : Shifted) (s : State) : State := answerArithmetic (adderRsb s.inp.rn op2.value) s

/-- ADD: `rn` plus operand 2 (R121, R128). -/
def dpAdd (op2 : Shifted) (s : State) : State := answerArithmetic (adderAdd s.inp.rn op2.value) s

/-- ADC: `rn` plus operand 2 plus the stored C (R121, R128). -/
def dpAdc (op2 : Shifted) (s : State) : State := answerArithmetic (adderAdc s.inp.rn op2.value s.nzcv.c) s

/-- SBC: `rn` minus operand 2 minus the complement of the stored C (R121, R128). -/
def dpSbc (op2 : Shifted) (s : State) : State := answerArithmetic (adderSbc s.inp.rn op2.value s.nzcv.c) s

/-- RSC: operand 2 minus `rn` minus the complement of the stored C (R121, R128). -/
def dpRsc (op2 : Shifted) (s : State) : State := answerArithmetic (adderRsc s.inp.rn op2.value s.nzcv.c) s

/-- ORR: `rn` OR operand 2 (R127). -/
def dpOrr (op2 : Shifted) (s : State) : State := answerBitwise (s.inp.rn ||| op2.value) op2 s

/-- MOV: operand 2 itself (R127). -/
def dpMov (op2 : Shifted) (s : State) : State := answerBitwise (op2.value) op2 s

/-- BIC: `rn` AND the complement of operand 2 (R127). -/
def dpBic (op2 : Shifted) (s : State) : State := answerBitwise (s.inp.rn &&& ~~~op2.value) op2 s

/-- MVN: the complement of operand 2 (R127). -/
def dpMvn (op2 : Shifted) (s : State) : State := answerBitwise (~~~op2.value) op2 s

end Sys2Proof.Machine
end

