-- ==== Sys2Proof/Machine/DpImmediate.lean ====
section
/-! DEFINITION. Group DPI: immediate operand (spec/43_dp_immediate.md R180 to R191). -/

namespace Sys2Proof.Machine

/-- I_AND (R180). -/
def execIAnd (s : State) : Answer := withImmediate s dpAnd

/-- I_EOR (R181). -/
def execIEor (s : State) : Answer := withImmediate s dpEor

/-- I_SUB (R182). -/
def execISub (s : State) : Answer := withImmediate s dpSub

/-- I_RSB (R183). -/
def execIRsb (s : State) : Answer := withImmediate s dpRsb

/-- I_ADD (R184). -/
def execIAdd (s : State) : Answer := withImmediate s dpAdd

/-- I_ADC (R185). -/
def execIAdc (s : State) : Answer := withImmediate s dpAdc

/-- I_SBC (R186). -/
def execISbc (s : State) : Answer := withImmediate s dpSbc

/-- I_RSC (R187). -/
def execIRsc (s : State) : Answer := withImmediate s dpRsc

/-- I_ORR (R188). -/
def execIOrr (s : State) : Answer := withImmediate s dpOrr

/-- I_MOV (R189). -/
def execIMov (s : State) : Answer := withImmediate s dpMov

/-- I_BIC (R190). -/
def execIBic (s : State) : Answer := withImmediate s dpBic

/-- I_MVN (R191). -/
def execIMvn (s : State) : Answer := withImmediate s dpMvn

end Sys2Proof.Machine
end

