-- ==== Sys2Proof/Machine/DpLiteral.lean ====
section
/-! DEFINITION. Group DPR: register operand, literal shift amount (spec/42_dp_register.md R140 to R151). -/

namespace Sys2Proof.Machine

/-- AND (R140). -/
def execAnd (type : ShiftType) (amt : Nat) (s : State) : Answer := withLiteral type amt s dpAnd

/-- EOR (R141). -/
def execEor (type : ShiftType) (amt : Nat) (s : State) : Answer := withLiteral type amt s dpEor

/-- SUB (R142). -/
def execSub (type : ShiftType) (amt : Nat) (s : State) : Answer := withLiteral type amt s dpSub

/-- RSB (R143). -/
def execRsb (type : ShiftType) (amt : Nat) (s : State) : Answer := withLiteral type amt s dpRsb

/-- ADD (R144). -/
def execAdd (type : ShiftType) (amt : Nat) (s : State) : Answer := withLiteral type amt s dpAdd

/-- ADC (R145). -/
def execAdc (type : ShiftType) (amt : Nat) (s : State) : Answer := withLiteral type amt s dpAdc

/-- SBC (R146). -/
def execSbc (type : ShiftType) (amt : Nat) (s : State) : Answer := withLiteral type amt s dpSbc

/-- RSC (R147). -/
def execRsc (type : ShiftType) (amt : Nat) (s : State) : Answer := withLiteral type amt s dpRsc

/-- ORR (R148). -/
def execOrr (type : ShiftType) (amt : Nat) (s : State) : Answer := withLiteral type amt s dpOrr

/-- MOV (R149). -/
def execMov (type : ShiftType) (amt : Nat) (s : State) : Answer := withLiteral type amt s dpMov

/-- BIC (R150). -/
def execBic (type : ShiftType) (amt : Nat) (s : State) : Answer := withLiteral type amt s dpBic

/-- MVN (R151). -/
def execMvn (type : ShiftType) (amt : Nat) (s : State) : Answer := withLiteral type amt s dpMvn

end Sys2Proof.Machine
end

