-- ==== Sys2Proof/Machine/DpRegister.lean ====
section
/-! DEFINITION. Group DPRS: register operand, register-specified shift amount (spec/42_dp_register.md R152 to R163). -/

namespace Sys2Proof.Machine

/-- AND_RS (R152). -/
def execAndRs (type : ShiftType) (s : State) : Answer := withRegister type s dpAnd

/-- EOR_RS (R153). -/
def execEorRs (type : ShiftType) (s : State) : Answer := withRegister type s dpEor

/-- SUB_RS (R154). -/
def execSubRs (type : ShiftType) (s : State) : Answer := withRegister type s dpSub

/-- RSB_RS (R155). -/
def execRsbRs (type : ShiftType) (s : State) : Answer := withRegister type s dpRsb

/-- ADD_RS (R156). -/
def execAddRs (type : ShiftType) (s : State) : Answer := withRegister type s dpAdd

/-- ADC_RS (R157). -/
def execAdcRs (type : ShiftType) (s : State) : Answer := withRegister type s dpAdc

/-- SBC_RS (R158). -/
def execSbcRs (type : ShiftType) (s : State) : Answer := withRegister type s dpSbc

/-- RSC_RS (R159). -/
def execRscRs (type : ShiftType) (s : State) : Answer := withRegister type s dpRsc

/-- ORR_RS (R160). -/
def execOrrRs (type : ShiftType) (s : State) : Answer := withRegister type s dpOrr

/-- MOV_RS (R161). -/
def execMovRs (type : ShiftType) (s : State) : Answer := withRegister type s dpMov

/-- BIC_RS (R162). -/
def execBicRs (type : ShiftType) (s : State) : Answer := withRegister type s dpBic

/-- MVN_RS (R163). -/
def execMvnRs (type : ShiftType) (s : State) : Answer := withRegister type s dpMvn

end Sys2Proof.Machine
end

