-- ==== Sys2Proof/Machine/FlagCommit.lean ====
section
/-! DEFINITION. Group FLAG: the flag commit, the only command that changes the register (spec/45_flags_commit.md
R230). The block has no other system-level command (R234). -/

namespace Sys2Proof.Machine

/-- COMMIT: the stored flags become the set on `fin` (R230). -/
def execCommit (s : State) : Answer := .next (commitFlags (unpackFlags s.inp.fin) s)

end Sys2Proof.Machine
end

