-- ==== Sys2Proof/Machine/Multiply.lean ====
section
/-! DEFINITION. Group MUL: multiply and multiply-accumulate (spec/44_multiply.md R210 to R220). Every product and
sum is an exact integer; the only loss is the written truncation (R210). -/

namespace Sys2Proof.Machine

/-- The exact product of the unsigned readings of `rn` and `rm` (R212). -/
def productUnsigned (s : State) : Int := s.inp.rn.toNat * s.inp.rm.toNat

/-- The exact product of the signed readings of `rn` and `rm` (R212). -/
def productSigned (s : State) : Int := s.inp.rn.toInt * s.inp.rm.toInt

/-- The answer of MUL and MLA: the result and `flags32` of it (R211). -/
def answerMultiply (r : Word) (s : State) : State := respondResultFlags r (flags32 r s.nzcv) s

/-- MUL: the low 32 bits of the product (R213). -/
def execMul (s : State) : Answer := .next (answerMultiply (trunc32 (productUnsigned s)) s)

/-- MLA: the low 32 bits of the product plus `ra` (R214). -/
def execMla (s : State) : Answer := .next (answerMultiply (trunc32 (productUnsigned s + s.inp.ra.toNat)) s)

/-- UMAAL: the product plus `rdhi` and `rdlo` as two 32-bit addends; no flags (R215). -/
def execUmaal (s : State) : Answer :=
  .next (respondPair (trunc64 (productUnsigned s + s.inp.rdhi.toNat + s.inp.rdlo.toNat)) s)

/-- MLS: the low 32 bits of `ra` minus the product; flags only under `MLS_REPORTS_FLAGS` (R216). -/
def execMls (s : State) : Answer :=
  let r := trunc32 (s.inp.ra.toNat - productUnsigned s)
  .next (if s.params.mlsReportsFlags then answerMultiply r s else respondResult r s)

/-- UMULL: the 64-bit unsigned product (R217). -/
def execUmull (s : State) : Answer := .next (respondPairFlags (trunc64 (productUnsigned s)) s)

/-- UMLAL: the unsigned product plus the accumulator, modulo 2^64 (R218). -/
def execUmlal (s : State) : Answer :=
  .next (respondPairFlags (trunc64 (productUnsigned s + accumulatorUnsigned s)) s)

/-- SMULL: the 64-bit signed product (R219). -/
def execSmull (s : State) : Answer := .next (respondPairFlags (trunc64 (productSigned s)) s)

/-- SMLAL: the signed product plus the accumulator, modulo 2^64 (R220). -/
def execSmlal (s : State) : Answer :=
  .next (respondPairFlags (trunc64 (productSigned s + accumulatorSigned s)) s)

end Sys2Proof.Machine
end

