-- ==== Sys2Proof/Machine/Dispatch.lean ====
section
/-! DEFINITION. One arm per command: its meaning on a state whose input ports have been sampled. -/

namespace Sys2Proof.Machine

def exec (i : Instr) (s : State) : Host.Outcome State Fault Refusal :=
  match i with
  | .and type amt => Sys2Proof.Machine.execAnd type amt s
  | .eor type amt => Sys2Proof.Machine.execEor type amt s
  | .sub type amt => Sys2Proof.Machine.execSub type amt s
  | .rsb type amt => Sys2Proof.Machine.execRsb type amt s
  | .add type amt => Sys2Proof.Machine.execAdd type amt s
  | .adc type amt => Sys2Proof.Machine.execAdc type amt s
  | .sbc type amt => Sys2Proof.Machine.execSbc type amt s
  | .rsc type amt => Sys2Proof.Machine.execRsc type amt s
  | .orr type amt => Sys2Proof.Machine.execOrr type amt s
  | .mov type amt => Sys2Proof.Machine.execMov type amt s
  | .bic type amt => Sys2Proof.Machine.execBic type amt s
  | .mvn type amt => Sys2Proof.Machine.execMvn type amt s
  | .andRs type => Sys2Proof.Machine.execAndRs type s
  | .eorRs type => Sys2Proof.Machine.execEorRs type s
  | .subRs type => Sys2Proof.Machine.execSubRs type s
  | .rsbRs type => Sys2Proof.Machine.execRsbRs type s
  | .addRs type => Sys2Proof.Machine.execAddRs type s
  | .adcRs type => Sys2Proof.Machine.execAdcRs type s
  | .sbcRs type => Sys2Proof.Machine.execSbcRs type s
  | .rscRs type => Sys2Proof.Machine.execRscRs type s
  | .orrRs type => Sys2Proof.Machine.execOrrRs type s
  | .movRs type => Sys2Proof.Machine.execMovRs type s
  | .bicRs type => Sys2Proof.Machine.execBicRs type s
  | .mvnRs type => Sys2Proof.Machine.execMvnRs type s
  | .iAnd => Sys2Proof.Machine.execIAnd s
  | .iEor => Sys2Proof.Machine.execIEor s
  | .iSub => Sys2Proof.Machine.execISub s
  | .iRsb => Sys2Proof.Machine.execIRsb s
  | .iAdd => Sys2Proof.Machine.execIAdd s
  | .iAdc => Sys2Proof.Machine.execIAdc s
  | .iSbc => Sys2Proof.Machine.execISbc s
  | .iRsc => Sys2Proof.Machine.execIRsc s
  | .iOrr => Sys2Proof.Machine.execIOrr s
  | .iMov => Sys2Proof.Machine.execIMov s
  | .iBic => Sys2Proof.Machine.execIBic s
  | .iMvn => Sys2Proof.Machine.execIMvn s
  | .adrAdd => Sys2Proof.Machine.execAdrAdd s
  | .adrSub => Sys2Proof.Machine.execAdrSub s
  | .mul => Sys2Proof.Machine.execMul s
  | .mla => Sys2Proof.Machine.execMla s
  | .umaal => Sys2Proof.Machine.execUmaal s
  | .mls => Sys2Proof.Machine.execMls s
  | .umull => Sys2Proof.Machine.execUmull s
  | .umlal => Sys2Proof.Machine.execUmlal s
  | .smull => Sys2Proof.Machine.execSmull s
  | .smlal => Sys2Proof.Machine.execSmlal s
  | .commit => Sys2Proof.Machine.execCommit s
  | .extractBits w start stop => Sys2Proof.Machine.execExtractBits w start stop s
  | .writeBits w start stop => Sys2Proof.Machine.execWriteBits w start stop s
  | .countBits => Sys2Proof.Machine.execCountBits s

end Sys2Proof.Machine
end

