-- ==== Sys2Proof/WellFormed.lean ====
section
/-! DEFINITION. Well-formed commands: the ones a command word can carry (spec/30_encoding.md R71, R73). -/

namespace Sys2Proof

/-- A literal amount fits the 8-bit field `amt` (R71). Amounts 32 to 255 are well formed: they decode, and the
command raises an error when it is executed. -/
def amountFits (amt : Nat) : Bool := decide (amt < 256)

/-- Both bounds fit their 6-bit fields (R73). -/
def boundsFit (start stop : Nat) : Bool := decide (start < 64) && decide (stop < 64)

/-- `i` fits its command word. -/
def Instr.wellFormed : Instr → Bool
  | .and _ amt | .eor _ amt | .sub _ amt | .rsb _ amt | .add _ amt | .adc _ amt
  | .sbc _ amt | .rsc _ amt | .orr _ amt | .mov _ amt | .bic _ amt | .mvn _ amt => amountFits amt
  | .andRs _ | .eorRs _ | .subRs _ | .rsbRs _ | .addRs _ | .adcRs _
  | .sbcRs _ | .rscRs _ | .orrRs _ | .movRs _ | .bicRs _ | .mvnRs _ => true
  | .iAnd | .iEor | .iSub | .iRsb | .iAdd | .iAdc
  | .iSbc | .iRsc | .iOrr | .iMov | .iBic | .iMvn => true
  | .adrAdd | .adrSub => true
  | .mul | .mla | .umaal | .mls | .umull | .umlal | .smull | .smlal => true
  | .commit => true
  | .extractBits _ start stop | .writeBits _ start stop => boundsFit start stop
  | .countBits => true

end Sys2Proof
end

