-- ==== Sys2Proof/Decode.lean ====
section
/-! DEFINITION. The decoder, total on all 2^24 command words, and the encoder, both written from the tables of
spec/30_encoding.md. Decoding reads only `cmd` (R76). After them: spec/opcode_table.json as data. -/

namespace Sys2Proof

/-! ## The four fields of a command word (R60) -/

/-- `cmd[23:20]`, the command group. -/
def grpOf (c : Cmd) : BitVec 4 := c.extractLsb' 20 4

/-- `cmd[19:16]`, the operation within the group. -/
def opOf (c : Cmd) : BitVec 4 := c.extractLsb' 16 4

/-- `cmd[15:12]`, the group-specific modifier. -/
def modOf (c : Cmd) : BitVec 4 := c.extractLsb' 12 4

/-- `cmd[11:0]`, the group-specific argument. -/
def argOf (c : Cmd) : BitVec 12 := c.extractLsb' 0 12

/-- The command word of four fields. -/
def cmdOf (grp op mod : BitVec 4) (arg : BitVec 12) : Cmd := grp ++ op ++ mod ++ arg

/-! ## Decoding -/

/-- Why a command word is reserved (R78). Each of the three raises the same Reserved-Command error (R244). -/
inductive DecodeError where
  /-- `grp` is 0x7 to 0xF -/
  | reservedGroup
  /-- the group has no operation with this `op` -/
  | reservedOp
  /-- a bit that the format marks reserved or "all zero" is 1 -/
  | reservedBits
  deriving DecidableEq, Repr

/-- The ShiftType of the modifier `00tt` (R62, R69); a 1 in its two high bits is reserved. -/
def decodeShiftType (mod : BitVec 4) : Option ShiftType :=
  match mod.toNat with
  | 0 => some .logicalLeft
  | 1 => some .logicalRight
  | 2 => some .arithmeticRight
  | 3 => some .rotateRight
  | _ => none

/-- The container of the modifier `000w` (R68). -/
def decodeContainer (mod : BitVec 4) : Option Container :=
  match mod.toNat with
  | 0 => some .word
  | 1 => some .imm12
  | _ => none

/-- The data-processing `op` codes in group DPR (R74): the command still to be given its `type` and `amt`. -/
def dprCommand (op : BitVec 4) : Option (ShiftType → Nat → Instr) :=
  match op.toNat with
  | 0x0 => some .and
  | 0x1 => some .eor
  | 0x2 => some .sub
  | 0x3 => some .rsb
  | 0x4 => some .add
  | 0x5 => some .adc
  | 0x6 => some .sbc
  | 0x7 => some .rsc
  | 0xc => some .orr
  | 0xd => some .mov
  | 0xe => some .bic
  | 0xf => some .mvn
  | _ => none

/-- The data-processing `op` codes in group DPRS (R74). -/
def dprsCommand (op : BitVec 4) : Option (ShiftType → Instr) :=
  match op.toNat with
  | 0x0 => some .andRs
  | 0x1 => some .eorRs
  | 0x2 => some .subRs
  | 0x3 => some .rsbRs
  | 0x4 => some .addRs
  | 0x5 => some .adcRs
  | 0x6 => some .sbcRs
  | 0x7 => some .rscRs
  | 0xc => some .orrRs
  | 0xd => some .movRs
  | 0xe => some .bicRs
  | 0xf => some .mvnRs
  | _ => none

/-- The commands of groups DPI, ADR, MUL and FLAG, whose words are all fixed bits (R64 to R67, R74, R75). -/
def fixedCommand (grp op : BitVec 4) : Option Instr :=
  match grp.toNat, op.toNat with
  | 2, 0x0 => some .iAnd
  | 2, 0x1 => some .iEor
  | 2, 0x2 => some .iSub
  | 2, 0x3 => some .iRsb
  | 2, 0x4 => some .iAdd
  | 2, 0x5 => some .iAdc
  | 2, 0x6 => some .iSbc
  | 2, 0x7 => some .iRsc
  | 2, 0xc => some .iOrr
  | 2, 0xd => some .iMov
  | 2, 0xe => some .iBic
  | 2, 0xf => some .iMvn
  | 3, 0x4 => some .adrAdd
  | 3, 0x2 => some .adrSub
  | 4, 0x0 => some .mul
  | 4, 0x1 => some .mla
  | 4, 0x2 => some .umaal
  | 4, 0x3 => some .mls
  | 4, 0x4 => some .umull
  | 4, 0x5 => some .umlal
  | 4, 0x6 => some .smull
  | 4, 0x7 => some .smlal
  | 5, 0x0 => some .commit
  | _, _ => none

/-- Format DPR, `0000 oooo 00tt 0000 aaaa aaaa` (R62). -/
def decodeDpr (op mod : BitVec 4) (arg : BitVec 12) : Except DecodeError Instr :=
  match dprCommand op, decodeShiftType mod with
  | none, _ => .error .reservedOp
  | some _, none => .error .reservedBits
  | some command, some type =>
    if arg.toNat < 256 then .ok (command type arg.toNat) else .error .reservedBits

/-- Format DPRS, `0001 oooo 00tt 0000 0000 0000` (R63). -/
def decodeDprs (op mod : BitVec 4) (arg : BitVec 12) : Except DecodeError Instr :=
  match dprsCommand op, decodeShiftType mod with
  | none, _ => .error .reservedOp
  | some _, none => .error .reservedBits
  | some command, some type => if arg = 0 then .ok (command type) else .error .reservedBits

/-- Formats DPI, ADR, MUL and FLAG: `mod` and `arg` all zero (R64 to R67). -/
def decodeFixed (grp op mod : BitVec 4) (arg : BitVec 12) : Except DecodeError Instr :=
  match fixedCommand grp op with
  | none => .error .reservedOp
  | some i => if mod = 0 ∧ arg = 0 then .ok i else .error .reservedBits

/-- Format BITS, `0110 00oo 000w eeee eess ssss`; COUNTBITS has `w`, `end` and `start` zero (R68). -/
def decodeBits (op mod : BitVec 4) (arg : BitVec 12) : Except DecodeError Instr :=
  match op.toNat, decodeContainer mod with
  | 0, some w => .ok (.extractBits w (arg.extractLsb' 0 6).toNat (arg.extractLsb' 6 6).toNat)
  | 1, some w => .ok (.writeBits w (arg.extractLsb' 0 6).toNat (arg.extractLsb' 6 6).toNat)
  | 2, some .word => if arg = 0 then .ok .countBits else .error .reservedBits
  | 0, none | 1, none | 2, _ => .error .reservedBits
  | _, _ => .error .reservedOp

/-- The command a word selects, or why it is reserved (R61, R76 to R78). -/
def decode (c : Cmd) : Except DecodeError Instr :=
  match (grpOf c).toNat with
  | 0 => decodeDpr (opOf c) (modOf c) (argOf c)
  | 1 => decodeDprs (opOf c) (modOf c) (argOf c)
  | 2 | 3 | 4 | 5 => decodeFixed (grpOf c) (opOf c) (modOf c) (argOf c)
  | 6 => decodeBits (opOf c) (modOf c) (argOf c)
  | _ => .error .reservedGroup

/-- The decoder on a row of spec/opcode_table.json: the low `nbits` bits of `w`, every bit above them 0. The
command word is whole on port `cmd` (R41, R56), bit 0 its least significant bit: there is no byte order to
apply (R48). A number that needs more than 24 bits is no command word. -/
def decodeTableWord (nbits w : Nat) : Option Instr :=
  if w % 2 ^ nbits < 2 ^ 24 then
    match decode (BitVec.ofNat 24 (w % 2 ^ nbits)) with
    | .ok i => some i
    | .error _ => none
  else none

/-! ## Encoding -/

/-- The `type` field (R69). -/
def shiftCode : ShiftType → BitVec 4
  | .logicalLeft => 0
  | .logicalRight => 1
  | .arithmeticRight => 2
  | .rotateRight => 3

/-- The `w` field (R68). -/
def containerCode : Container → BitVec 4
  | .word => 0
  | .imm12 => 1

/-- Format DPR (R62). -/
def encodeDpr (op : BitVec 4) (type : ShiftType) (amt : Nat) : Cmd :=
  cmdOf 0 op (shiftCode type) (BitVec.ofNat 12 amt)

/-- Format DPRS (R63). -/
def encodeDprs (op : BitVec 4) (type : ShiftType) : Cmd := cmdOf 1 op (shiftCode type) 0

/-- Formats DPI, ADR, MUL and FLAG (R64 to R67). -/
def encodeFixed (grp op : BitVec 4) : Cmd := cmdOf grp op 0 0

/-- Format BITS (R68): `end` above `start`. -/
def encodeBits (op : BitVec 4) (w : Container) (start stop : Nat) : Cmd :=
  cmdOf 6 op (containerCode w) (BitVec.ofNat 6 stop ++ BitVec.ofNat 6 start)

/-- The command word of a command (R61 to R69, R74, R75). -/
def encode : Instr → Cmd
  | .and type amt => encodeDpr 0x0 type amt
  | .eor type amt => encodeDpr 0x1 type amt
  | .sub type amt => encodeDpr 0x2 type amt
  | .rsb type amt => encodeDpr 0x3 type amt
  | .add type amt => encodeDpr 0x4 type amt
  | .adc type amt => encodeDpr 0x5 type amt
  | .sbc type amt => encodeDpr 0x6 type amt
  | .rsc type amt => encodeDpr 0x7 type amt
  | .orr type amt => encodeDpr 0xc type amt
  | .mov type amt => encodeDpr 0xd type amt
  | .bic type amt => encodeDpr 0xe type amt
  | .mvn type amt => encodeDpr 0xf type amt
  | .andRs type => encodeDprs 0x0 type
  | .eorRs type => encodeDprs 0x1 type
  | .subRs type => encodeDprs 0x2 type
  | .rsbRs type => encodeDprs 0x3 type
  | .addRs type => encodeDprs 0x4 type
  | .adcRs type => encodeDprs 0x5 type
  | .sbcRs type => encodeDprs 0x6 type
  | .rscRs type => encodeDprs 0x7 type
  | .orrRs type => encodeDprs 0xc type
  | .movRs type => encodeDprs 0xd type
  | .bicRs type => encodeDprs 0xe type
  | .mvnRs type => encodeDprs 0xf type
  | .iAnd => encodeFixed 2 0x0
  | .iEor => encodeFixed 2 0x1
  | .iSub => encodeFixed 2 0x2
  | .iRsb => encodeFixed 2 0x3
  | .iAdd => encodeFixed 2 0x4
  | .iAdc => encodeFixed 2 0x5
  | .iSbc => encodeFixed 2 0x6
  | .iRsc => encodeFixed 2 0x7
  | .iOrr => encodeFixed 2 0xc
  | .iMov => encodeFixed 2 0xd
  | .iBic => encodeFixed 2 0xe
  | .iMvn => encodeFixed 2 0xf
  | .adrAdd => encodeFixed 3 0x4
  | .adrSub => encodeFixed 3 0x2
  | .mul => encodeFixed 4 0x0
  | .mla => encodeFixed 4 0x1
  | .umaal => encodeFixed 4 0x2
  | .mls => encodeFixed 4 0x3
  | .umull => encodeFixed 4 0x4
  | .umlal => encodeFixed 4 0x5
  | .smull => encodeFixed 4 0x6
  | .smlal => encodeFixed 4 0x7
  | .commit => encodeFixed 5 0x0
  | .extractBits w start stop => encodeBits 0x0 w start stop
  | .writeBits w start stop => encodeBits 0x1 w start stop
  | .countBits => encodeFixed 6 0x2

/-! ## The opcode table (R77) -/

/-- One row: a word `c` selects it when `c AND mask = pattern` (R76). -/
structure Row where
  mnemonic : String
  pattern : Cmd
  mask : Cmd
  deriving DecidableEq, Repr

/-- `c` selects the row (R76). -/
def Row.selects (r : Row) (c : Cmd) : Bool := decide (c &&& r.mask = r.pattern)

/-- The rows of group DPR (R77). -/
def dprRows : List Row :=
  [⟨"AND", 0x000000, 0xFFCF00⟩,
   ⟨"EOR", 0x010000, 0xFFCF00⟩,
   ⟨"SUB", 0x020000, 0xFFCF00⟩,
   ⟨"RSB", 0x030000, 0xFFCF00⟩,
   ⟨"ADD", 0x040000, 0xFFCF00⟩,
   ⟨"ADC", 0x050000, 0xFFCF00⟩,
   ⟨"SBC", 0x060000, 0xFFCF00⟩,
   ⟨"RSC", 0x070000, 0xFFCF00⟩,
   ⟨"ORR", 0x0C0000, 0xFFCF00⟩,
   ⟨"MOV", 0x0D0000, 0xFFCF00⟩,
   ⟨"BIC", 0x0E0000, 0xFFCF00⟩,
   ⟨"MVN", 0x0F0000, 0xFFCF00⟩]

/-- The rows of group DPRS (R77). -/
def dprsRows : List Row :=
  [⟨"AND_RS", 0x100000, 0xFFCFFF⟩,
   ⟨"EOR_RS", 0x110000, 0xFFCFFF⟩,
   ⟨"SUB_RS", 0x120000, 0xFFCFFF⟩,
   ⟨"RSB_RS", 0x130000, 0xFFCFFF⟩,
   ⟨"ADD_RS", 0x140000, 0xFFCFFF⟩,
   ⟨"ADC_RS", 0x150000, 0xFFCFFF⟩,
   ⟨"SBC_RS", 0x160000, 0xFFCFFF⟩,
   ⟨"RSC_RS", 0x170000, 0xFFCFFF⟩,
   ⟨"ORR_RS", 0x1C0000, 0xFFCFFF⟩,
   ⟨"MOV_RS", 0x1D0000, 0xFFCFFF⟩,
   ⟨"BIC_RS", 0x1E0000, 0xFFCFFF⟩,
   ⟨"MVN_RS", 0x1F0000, 0xFFCFFF⟩]

/-- The rows of group DPI (R77). -/
def dpiRows : List Row :=
  [⟨"I_AND", 0x200000, 0xFFFFFF⟩,
   ⟨"I_EOR", 0x210000, 0xFFFFFF⟩,
   ⟨"I_SUB", 0x220000, 0xFFFFFF⟩,
   ⟨"I_RSB", 0x230000, 0xFFFFFF⟩,
   ⟨"I_ADD", 0x240000, 0xFFFFFF⟩,
   ⟨"I_ADC", 0x250000, 0xFFFFFF⟩,
   ⟨"I_SBC", 0x260000, 0xFFFFFF⟩,
   ⟨"I_RSC", 0x270000, 0xFFFFFF⟩,
   ⟨"I_ORR", 0x2C0000, 0xFFFFFF⟩,
   ⟨"I_MOV", 0x2D0000, 0xFFFFFF⟩,
   ⟨"I_BIC", 0x2E0000, 0xFFFFFF⟩,
   ⟨"I_MVN", 0x2F0000, 0xFFFFFF⟩]

/-- The rows of group ADR (R77). -/
def adrRows : List Row :=
  [⟨"ADR_ADD", 0x340000, 0xFFFFFF⟩,
   ⟨"ADR_SUB", 0x320000, 0xFFFFFF⟩]

/-- The rows of group MUL (R77). -/
def mulRows : List Row :=
  [⟨"MUL", 0x400000, 0xFFFFFF⟩,
   ⟨"MLA", 0x410000, 0xFFFFFF⟩,
   ⟨"UMAAL", 0x420000, 0xFFFFFF⟩,
   ⟨"MLS", 0x430000, 0xFFFFFF⟩,
   ⟨"UMULL", 0x440000, 0xFFFFFF⟩,
   ⟨"UMLAL", 0x450000, 0xFFFFFF⟩,
   ⟨"SMULL", 0x460000, 0xFFFFFF⟩,
   ⟨"SMLAL", 0x470000, 0xFFFFFF⟩]

/-- The rows of group FLAG (R77). -/
def flagRows : List Row :=
  [⟨"COMMIT", 0x500000, 0xFFFFFF⟩]

/-- The rows of group BITS (R77). -/
def bitsRows : List Row :=
  [⟨"EXTRACTBITS", 0x600000, 0xFFE000⟩,
   ⟨"WRITEBITS", 0x610000, 0xFFE000⟩,
   ⟨"COUNTBITS", 0x620000, 0xFFFFFF⟩]

/-- The 50 rows of spec/opcode_table.json. -/
def opcodeTable : List Row :=
  dprRows ++ dprsRows ++ dpiRows ++ adrRows ++ mulRows ++ flagRows ++ bitsRows

/-- The row a command stands for. -/
def Instr.mnemonic : Instr → String
  | .and _ _ => "AND"
  | .eor _ _ => "EOR"
  | .sub _ _ => "SUB"
  | .rsb _ _ => "RSB"
  | .add _ _ => "ADD"
  | .adc _ _ => "ADC"
  | .sbc _ _ => "SBC"
  | .rsc _ _ => "RSC"
  | .orr _ _ => "ORR"
  | .mov _ _ => "MOV"
  | .bic _ _ => "BIC"
  | .mvn _ _ => "MVN"
  | .andRs _ => "AND_RS"
  | .eorRs _ => "EOR_RS"
  | .subRs _ => "SUB_RS"
  | .rsbRs _ => "RSB_RS"
  | .addRs _ => "ADD_RS"
  | .adcRs _ => "ADC_RS"
  | .sbcRs _ => "SBC_RS"
  | .rscRs _ => "RSC_RS"
  | .orrRs _ => "ORR_RS"
  | .movRs _ => "MOV_RS"
  | .bicRs _ => "BIC_RS"
  | .mvnRs _ => "MVN_RS"
  | .iAnd => "I_AND"
  | .iEor => "I_EOR"
  | .iSub => "I_SUB"
  | .iRsb => "I_RSB"
  | .iAdd => "I_ADD"
  | .iAdc => "I_ADC"
  | .iSbc => "I_SBC"
  | .iRsc => "I_RSC"
  | .iOrr => "I_ORR"
  | .iMov => "I_MOV"
  | .iBic => "I_BIC"
  | .iMvn => "I_MVN"
  | .adrAdd => "ADR_ADD"
  | .adrSub => "ADR_SUB"
  | .mul => "MUL"
  | .mla => "MLA"
  | .umaal => "UMAAL"
  | .mls => "MLS"
  | .umull => "UMULL"
  | .umlal => "UMLAL"
  | .smull => "SMULL"
  | .smlal => "SMLAL"
  | .commit => "COMMIT"
  | .extractBits _ _ _ => "EXTRACTBITS"
  | .writeBits _ _ _ => "WRITEBITS"
  | .countBits => "COUNTBITS"

end Sys2Proof
end

