-- ==== Sys2Proof/Machine/Ports.lean ====
section
/-! DEFINITION. Which input ports a transaction reads, and the sampling of the ports (spec/20_memory.md R41, R44).
"A port a command does not use is ignored" (R41): only a port that is read must carry a value. -/

namespace Sys2Proof.Machine

/-- The error a command's own argument check raises, from the command alone (R241, R242, R248). -/
def argumentError : Instr → Option ErrorKind
  | .and _ amt | .eor _ amt | .sub _ amt | .rsb _ amt | .add _ amt | .adc _ amt
  | .sbc _ amt | .rsc _ amt | .orr _ amt | .mov _ amt | .bic _ amt | .mvn _ amt => checkAmount amt
  | .extractBits w start stop | .writeBits w start stop => checkBounds (Container.width w) start stop
  | .andRs _ | .eorRs _ | .subRs _ | .rsbRs _ | .addRs _ | .adcRs _
  | .sbcRs _ | .rscRs _ | .orrRs _ | .movRs _ | .bicRs _ | .mvnRs _ => none
  | .iAnd | .iEor | .iSub | .iRsb | .iAdd | .iAdc | .iSbc | .iRsc | .iOrr | .iMov | .iBic | .iMvn => none
  | .adrAdd | .adrSub => none
  | .mul | .mla | .umaal | .mls | .umull | .umlal | .smull | .smlal => none
  | .commit | .countBits => none

/-- The input ports a command's rule names, beside `cmd` (R41, R62 to R68). -/
structure PortUse where
  rn : Bool := false
  rm : Bool := false
  rs : Bool := false
  ra : Bool := false
  rdhi : Bool := false
  rdlo : Bool := false
  imm12 : Bool := false
  fin : Bool := false
  deriving DecidableEq, Repr

/-- The ports each command reads, from the "Ports read" lines of R62 to R68 and the "used by" column of R41. -/
def portUse : Instr → PortUse
  | .and _ _ | .eor _ _ | .sub _ _ | .rsb _ _ | .add _ _ | .adc _ _
  | .sbc _ _ | .rsc _ _ | .orr _ _ | .bic _ _ => { rn := true, rm := true }
  | .mov _ _ | .mvn _ _ => { rm := true }
  | .andRs _ | .eorRs _ | .subRs _ | .rsbRs _ | .addRs _ | .adcRs _
  | .sbcRs _ | .rscRs _ | .orrRs _ | .bicRs _ => { rn := true, rm := true, rs := true }
  | .movRs _ | .mvnRs _ => { rm := true, rs := true }
  | .iAnd | .iEor | .iSub | .iRsb | .iAdd | .iAdc | .iSbc | .iRsc | .iOrr | .iBic => { rn := true, imm12 := true }
  | .iMov | .iMvn => { imm12 := true }
  | .adrAdd | .adrSub => { rn := true, imm12 := true }
  | .mul | .umull | .smull => { rn := true, rm := true }
  | .mla | .mls => { rn := true, rm := true, ra := true }
  | .umaal | .umlal | .smlal => { rn := true, rm := true, rdhi := true, rdlo := true }
  | .commit => { fin := true }
  | .extractBits .word _ _ => { rn := true }
  | .extractBits .imm12 _ _ => { imm12 := true }
  | .writeBits .word _ _ => { rn := true, rm := true }
  | .writeBits .imm12 _ _ => { rm := true, imm12 := true }
  | .countBits => { rn := true }

/-- The ports a transaction with the command word `c` reads: those its command's rule names, and none at all when
an error ends it before anything is computed. The checks read only `cmd` (R244, R245, R248). -/
def portsRead (c : Cmd) : PortUse :=
  match decode c with
  | .error _ => {}
  | .ok i =>
    match argumentError i with
    | some _ => {}
    | none => portUse i

/-- One port taken over: what it carries. A port that is not read need carry nothing and then stands as a port that
the transaction line does not mention, at 0 (R41, R81; log 4); nothing reads it. -/
def takePort {n : Nat} (read : Bool) (carried : Option (BitVec n)) : Option (BitVec n) :=
  if read then carried else some (carried.getD 0)

/-- The input ports of `t` taken over, those in `u` being read; none when one of these carries no value. -/
def takePorts (u : PortUse) (t : Transaction) (s : State) : Option InPorts :=
  match takePort u.rn (t.rn.sample s), takePort u.rm (t.rm.sample s), takePort u.rs (t.rs.sample s),
      takePort u.ra (t.ra.sample s), takePort u.rdhi (t.rdhi.sample s), takePort u.rdlo (t.rdlo.sample s),
      takePort u.fin (t.fin.sample s) with
  | some rn, some rm, some rs, some ra, some rdhi, some rdlo, some fin =>
    some { cmd := t.cmd, rn := rn, rm := rm, rs := rs, ra := ra, rdhi := rdhi, rdlo := rdlo,
           imm12 := t.imm12, fin := fin }
  | _, _, _, _, _, _, _ => none

/-- All input ports, sampled once (R41, R44); none when a port that is read carries no value, for "a program that
reads it has no meaning" (R42, R276, U5, U11). -/
def Transaction.sample (t : Transaction) (s : State) : Option InPorts := takePorts (portsRead t.cmd) t s

end Sys2Proof.Machine
end

