-- ==== Sys2Proof/Machine/Run.lean ====
section
/-! DEFINITION. What one step runs: the sampled command word decoded, then executed (spec/20_memory.md R44,
spec/60_exceptions.md R248). -/

namespace Sys2Proof.Machine

/-- The transaction on sampled ports: decode first; a reserved word raises the Reserved-Command error and never
executes as another command (R76, R78, R244, R248). -/
def runSampled (s : State) : Answer :=
  match decode s.inp.cmd with
  | .ok i => exec i s
  | .error _ => .next (raiseError .reservedCommand s)

/-- The caller presents its next transaction and the block runs it (R44 to R46). -/
def runNext (s : State) : Answer :=
  match s.pending with
  | [] => .refused .noTransaction
  | t :: rest =>
    match t.sample s with
    | none => .refused .outputHasNoValue
    | some p => runSampled (present p rest s)

/-- The transaction that carries the instruction `w` of `nbits` bits on `cmd`, every other port 0 (R81). -/
def fetchTransaction (nbits w : Nat) : Transaction := { cmd := BitVec.ofNat 24 (w % 2 ^ nbits) }

end Sys2Proof.Machine
end

