-- ==== Sys2Proof/Machine/Step.lean ====
section
/-! DEFINITION. One step of the block with its caller: one transaction (spec/20_memory.md R44, R46). -/

namespace Sys2Proof.Machine

/-- A caller that halts after an error presents nothing more (R247); otherwise the next transaction runs. -/
def step (s : State) : Host.Outcome State Fault Refusal :=
  match haltingError s with
  | some e => .fault (.haltedByCaller e)
  | none => runNext s

/-- `s` with the instruction `w` of `nbits` bits on the transaction the caller presents next. The block fetches
nothing (R56): the command word is supplied by the caller, so placing a program is adding to `pending` (log 9). -/
def State.withFetchWord (s : State) (nbits w : Nat) : State := presentNext (fetchTransaction nbits w) s

end Sys2Proof.Machine
end

