-- ==== Sys2Proof/Machine/System.lean ====
section
/-! DEFINITION. Several cores: one independent block, register and caller per core, nothing shared
(spec/60_exceptions.md R256). A step of the system is a step of one of its blocks; which one is the argument. -/

namespace Sys2Proof.Machine

/-- The blocks of a processor, by core number. -/
abbrev System := List State

/-- What a step of a system answers. -/
abbrev SystemAnswer := Host.Outcome System Fault Refusal

/-- Block `k` makes a step; every other block is as it was. -/
def System.step (k : Nat) (sys : System) : SystemAnswer :=
  match sys[k]? with
  | none => .refused .noSuchBlock
  | some s =>
    match Sys2Proof.Machine.step s with
    | .next s' => .next (sys.set k s')
    | .fault e => .fault e
    | .refused r => .refused r

/-- Each block takes its reset independently (R256, R270). -/
def System.reset (ps : List Params) : System := ps.map State.resetWith

end Sys2Proof.Machine
end

