-- ==== Sys2Proof/Safety.lean ====
section
/-! DEFINITION. What claims call a safe run, and the words they use. -/

namespace Sys2Proof.Machine

/-- The latest transaction reported an error: "a faulted state is never a final state" (R247). -/
def State.faulted (s : State) : Bool := s.out.err.isSome

/-- The caller has issued every transaction and none is outstanding (R273), and the state is not faulted (R247). -/
def State.final (s : State) : Bool := s.pending.isEmpty && !s.faulted

/-- The states a run passes through after each of its first `k` steps, as far as it goes. -/
def trace : (k : Nat) → State → List State
  | 0, _ => []
  | k + 1, s =>
    match step s with
    | .next s' => s' :: trace k s'
    | .fault _ => []
    | .refused _ => []

/-- "A run in which some transaction had `err` != 0 is a faulted run" (R273). -/
def faultedRun (k : Nat) (s : State) : Bool := (trace k s).any State.faulted

/-- The first `k` steps end the run, and no transaction of it failed: a faulted run is never final (R247, D23). -/
def finalRun (k : Nat) (s : State) : Bool := ((trace k s).getLastD s).final && !faultedRun k s

/-- The invariant of the output ports: with an error no data output has a value, `resulthi` comes only with
`result`, the candidate set only with `result`, and the Unknown-Shift-Type error is never shown (R42, R243, R245). -/
def OutPorts.wellFormed (o : OutPorts) : Bool :=
  (o.err.isNone || (!o.rvalid && !o.hvalid && !o.fvalid)) && (!o.hvalid || o.rvalid) && (!o.fvalid || o.rvalid)
    && decide (o.err ≠ some .unknownShiftType)

/-- Two sets of port values agree on the ports in `u`. -/
def agreeOn (u : PortUse) (p q : InPorts) : Prop :=
  (u.rn = true → p.rn = q.rn) ∧ (u.rm = true → p.rm = q.rm) ∧ (u.rs = true → p.rs = q.rs) ∧
  (u.ra = true → p.ra = q.ra) ∧ (u.rdhi = true → p.rdhi = q.rdhi) ∧ (u.rdlo = true → p.rdlo = q.rdlo) ∧
  (u.imm12 = true → p.imm12 = q.imm12) ∧ (u.fin = true → p.fin = q.fin)

/-- A port driven with a value of the caller's own. -/
def WordDrive.own : WordDrive → Bool
  | .value _ => true
  | .result | .resulthi => false

/-- `fin` driven with something that always has a value: the caller's own set or the stored flags. -/
def FlagDrive.own : FlagDrive → Bool
  | .value _ | .nzcv => true
  | .fout => false

/-- No port of the transaction is driven by an output of the transaction before it. -/
def Transaction.own (t : Transaction) : Bool :=
  t.rn.own && t.rm.own && t.rs.own && t.ra.own && t.rdhi.own && t.rdlo.own && t.fin.own

/-- The sampled command is a COMMIT (R67). -/
def State.committed (s : State) : Bool := decide (s.inp.cmd = 0x500000#24)

end Sys2Proof.Machine
end

