-- ==== Sys2Proof/Certificates/Slice0/Obligations.lean ====
section
/-! DEFINITION. The statements for the provers, and before them the few words they are written in. Those words are
taken from the rules a second time (a candidate set as a number, a command word as a sum of its fields), so that a
statement about a command is not the command's definition again. -/

open Sys2Proof Sys2Proof.Machine

namespace Sys2Proof.Claims

/-- A 4-flag set as a number: N counts 8, Z 4, C 2, V 1 (R22). -/
def flagSet (n z c v : Bool) : FlagBits := BitVec.ofNat 4 (8 * n.toNat + 4 * z.toNat + 2 * c.toNat + v.toNat)

/-- `flags(result[31], (result = 0), c, v)` for a 32-bit result. -/
def candidate (r : Word) (c v : Bool) : FlagBits := flagSet (decide (2 ^ 31 ≤ r.toNat)) (decide (r.toNat = 0)) c v

/-- `i` completes on `s` with exactly these outputs, no error, and every other field of the state as it was. -/
def completes (i : Instr) (s : State) (result resulthi : Option Word) (fout : Option FlagBits) : Prop :=
  exec i s = .next { s with out := ⟨result, resulthi, fout, none⟩ }

/-- `i` raises `e` on `s`: no output but `err` has a value, and every other field of the state is as it was. -/
def raises (i : Instr) (s : State) (e : ErrorKind) : Prop := exec i s = .next { s with out := ⟨none, none, none, some e⟩ }

/-- A bitwise command: its result, C the carry-out of operand 2, V the stored V. -/
def bitwise (i : Instr) (s : State) (r : Word) (carryOut : Bool) : Prop :=
  completes i s (some r) none (some (candidate r carryOut s.nzcv.v))

/-- An arithmetic command: the adder's result, carry-out and overflow; and the result as a truncated integer. -/
def arithmetic (i : Instr) (s : State) (a : Sum) (value : Int) : Prop :=
  completes i s (some a.result) none (some (candidate a.result a.carry a.overflow)) ∧ a.result = trunc32 value

/-- The code of the `type` field (R69). -/
def typeCode : ShiftType → Nat
  | .logicalLeft => 0
  | .logicalRight => 1
  | .arithmeticRight => 2
  | .rotateRight => 3

/-- The command word `base | type<<12 | amt`. -/
def shiftWord (base : Nat) (type : ShiftType) (amt : Nat) : Cmd := BitVec.ofNat 24 (base + typeCode type * 2 ^ 12 + amt)

/-- The command word `base | w<<12 | end<<6 | start`. -/
def fieldWord (base : Nat) (w : Container) (start stop : Nat) : Cmd :=
  BitVec.ofNat 24 (base + (match w with | .word => 0 | .imm12 => 1) * 2 ^ 12 + stop * 2 ^ 6 + start)

/-- Operand 2 with a register-specified amount (R125): the low 8 bits of `rs`, an amount of 0 being no shift. -/
def registerOperand2 (type : ShiftType) (s : State) : Shifted :=
  if s.inp.rs.toNat % 256 = 0 then ⟨s.inp.rm, s.nzcv.c⟩ else shiftC s.inp.rm type (s.inp.rs.toNat % 256) s.nzcv.c

/-- A 64-bit multiply with the mathematical value `value`: the two halves of its truncation to 64 bits. -/
def widening (i : Instr) (s : State) (value : Int) (reports : Bool) : Prop :=
  let p := (value % 2 ^ 64).toNat
  completes i s (some (BitVec.ofNat 32 (p % 2 ^ 32))) (some (BitVec.ofNat 32 (p / 2 ^ 32)))
    (if reports then some (flagSet (decide (2 ^ 63 ≤ p)) (decide (p = 0)) s.nzcv.c s.nzcv.v) else none)

/-- The outputs a command shows on `s`. -/
def outputs (i : Instr) (s : State) : Option OutPorts :=
  match exec i s with
  | .next t => some t.out
  | .fault _ => none
  | .refused _ => none

/-- The flags after a run from `f` through the states `us`: those of the latest COMMIT, or `f` (R53). -/
def latestCommit (f : Nzcv) (us : List State) : Nzcv :=
  match us.reverse.find? State.committed with
  | some u => ⟨u.inp.fin.getLsbD 3, u.inp.fin.getLsbD 2, u.inp.fin.getLsbD 1, u.inp.fin.getLsbD 0⟩
  | none => f

/-- The commands whose `result` depends on the stored C: ADC, SBC, RSC in all three groups, and any command of group
DPR whose shift is RRX (R272). -/
def resultUsesCarry : Instr → Bool
  | .adc _ _ | .sbc _ _ | .rsc _ _ | .adcRs _ | .sbcRs _ | .rscRs _ | .iAdc | .iSbc | .iRsc => true
  | .and t n | .eor t n | .sub t n | .rsb t n | .add t n | .orr t n | .mov t n | .bic t n | .mvn t n =>
    decide (t = .rotateRight ∧ n = 0)
  | .andRs _ | .eorRs _ | .subRs _ | .rsbRs _ | .addRs _ | .orrRs _ | .movRs _ | .bicRs _ | .mvnRs _ => false
  | .iAnd | .iEor | .iSub | .iRsb | .iAdd | .iOrr | .iMov | .iBic | .iMvn => false
  | .adrAdd | .adrSub | .mul | .mla | .umaal | .mls | .umull | .umlal | .smull | .smlal => false
  | .commit | .extractBits _ _ _ | .writeBits _ _ _ | .countBits => false

/-- The commands all of whose outputs the ports alone determine (R272), MLS when it reports no flags. -/
def portsDetermine (p : Params) : Instr → Bool
  | .add t n | .sub t n | .rsb t n => decide (¬ (t = .rotateRight ∧ n = 0))
  | .addRs _ | .subRs _ | .rsbRs _ | .iAdd | .iSub | .iRsb | .adrAdd | .adrSub | .umaal => true
  | .mls => !p.mlsReportsFlags
  | .extractBits _ _ _ | .writeBits _ _ _ | .countBits => true
  | .and _ _ | .eor _ _ | .adc _ _ | .sbc _ _ | .rsc _ _ | .orr _ _ | .mov _ _ | .bic _ _ | .mvn _ _ => false
  | .andRs _ | .eorRs _ | .adcRs _ | .sbcRs _ | .rscRs _ | .orrRs _ | .movRs _ | .bicRs _ | .mvnRs _ => false
  | .iAnd | .iEor | .iAdc | .iSbc | .iRsc | .iOrr | .iMov | .iBic | .iMvn => false
  | .mul | .mla | .umull | .umlal | .smull | .smlal => false
  | .commit => true

/-- The commands and operands with which the stored C is the candidate C (R272): the bitwise commands whose shifter or
expander passes the carry through, and the multiplies that report flags. -/
def carryReachesFout (s : State) : Instr → Bool
  | .and t n | .eor t n | .orr t n | .mov t n | .bic t n | .mvn t n => decide (t ≠ .rotateRight ∧ n = 0)
  | .andRs _ | .eorRs _ | .orrRs _ | .movRs _ | .bicRs _ | .mvnRs _ => decide (s.inp.rs.toNat % 256 = 0)
  | .iAnd | .iEor | .iOrr | .iMov | .iBic | .iMvn => decide (s.inp.imm12.toNat / 256 = 0)
  | .mul | .mla | .umull | .umlal | .smull | .smlal => true
  | .mls => s.params.mlsReportsFlags
  | .sub _ _ | .rsb _ _ | .add _ _ | .adc _ _ | .sbc _ _ | .rsc _ _ => false
  | .subRs _ | .rsbRs _ | .addRs _ | .adcRs _ | .sbcRs _ | .rscRs _ => false
  | .iSub | .iRsb | .iAdd | .iAdc | .iSbc | .iRsc => false
  | .adrAdd | .adrSub | .umaal | .commit | .extractBits _ _ _ | .writeBits _ _ _ | .countBits => false

/-- The commands whose candidate V is the stored V (R272): the bitwise ones and the multiplies that report flags. -/
def overflowReachesFout (p : Params) : Instr → Bool
  | .and _ _ | .eor _ _ | .orr _ _ | .mov _ _ | .bic _ _ | .mvn _ _ => true
  | .andRs _ | .eorRs _ | .orrRs _ | .movRs _ | .bicRs _ | .mvnRs _ => true
  | .iAnd | .iEor | .iOrr | .iMov | .iBic | .iMvn => true
  | .mul | .mla | .umull | .umlal | .smull | .smlal => true
  | .mls => p.mlsReportsFlags
  | .sub _ _ | .rsb _ _ | .add _ _ | .adc _ _ | .sbc _ _ | .rsc _ _ => false
  | .subRs _ | .rsbRs _ | .addRs _ | .adcRs _ | .sbcRs _ | .rscRs _ => false
  | .iSub | .iRsb | .iAdd | .iAdc | .iSbc | .iRsc => false
  | .adrAdd | .adrSub | .umaal | .commit | .extractBits _ _ _ | .writeBits _ _ _ | .countBits => false

/-- A 32-bit port driven from an output that has no value. -/
def emptyWord (d : WordDrive) (s : State) : Prop :=
  (d = .result ∧ s.out.result = none) ∨ (d = .resulthi ∧ s.out.resulthi = none)

/-- `fin` driven from `fout` when that has no value. -/
def emptyFlags (d : FlagDrive) (s : State) : Prop := d = .fout ∧ s.out.fout = none

/-- `t` carries a command that comes to compute, and a port which the command reads is driven from an output that has
no value in `s`. -/
def readsEmptyOutput (t : Transaction) (s : State) : Prop :=
  ∃ i, decode t.cmd = .ok i ∧ argumentError i = none ∧
    (((portUse i).rn = true ∧ emptyWord t.rn s) ∨ ((portUse i).rm = true ∧ emptyWord t.rm s) ∨
      ((portUse i).rs = true ∧ emptyWord t.rs s) ∨ ((portUse i).ra = true ∧ emptyWord t.ra s) ∨
      ((portUse i).rdhi = true ∧ emptyWord t.rdhi s) ∨ ((portUse i).rdlo = true ∧ emptyWord t.rdlo s) ∨
      ((portUse i).fin = true ∧ emptyFlags t.fin s))

/-- Two transactions of one command word that drive the ports in `u` alike. -/
def drivesAgree (u : PortUse) (t t' : Transaction) : Prop :=
  t'.cmd = t.cmd ∧ (u.rn = true → t'.rn = t.rn) ∧ (u.rm = true → t'.rm = t.rm) ∧ (u.rs = true → t'.rs = t.rs) ∧
  (u.ra = true → t'.ra = t.ra) ∧ (u.rdhi = true → t'.rdhi = t.rdhi) ∧ (u.rdlo = true → t'.rdlo = t.rdlo) ∧
  (u.imm12 = true → t'.imm12 = t.imm12) ∧ (u.fin = true → t'.fin = t.fin)

/-- What an answer shows outside: the output ports and the register, or that there is no next state. -/
def shown (a : Answer) : Option (OutPorts × Nzcv) :=
  match a with
  | .next t => some (t.out, t.nzcv)
  | .fault _ => none
  | .refused _ => none

/-- The valid bits `rvalid`, `hvalid`, `fvalid` of a command that raises no error (the second table of R42). -/
def validBits (p : Params) : Instr → Bool × Bool × Bool
  | .and _ _ | .eor _ _ | .sub _ _ | .rsb _ _ | .add _ _ | .adc _ _
  | .sbc _ _ | .rsc _ _ | .orr _ _ | .mov _ _ | .bic _ _ | .mvn _ _ => (true, false, true)
  | .andRs _ | .eorRs _ | .subRs _ | .rsbRs _ | .addRs _ | .adcRs _
  | .sbcRs _ | .rscRs _ | .orrRs _ | .movRs _ | .bicRs _ | .mvnRs _ => (true, false, true)
  | .iAnd | .iEor | .iSub | .iRsb | .iAdd | .iAdc
  | .iSbc | .iRsc | .iOrr | .iMov | .iBic | .iMvn => (true, false, true)
  | .adrAdd | .adrSub => (true, false, false)
  | .mul | .mla => (true, false, true)
  | .mls => (true, false, p.mlsReportsFlags)
  | .umull | .smull | .umlal | .smlal => (true, true, true)
  | .umaal => (true, true, false)
  | .commit => (false, false, false)
  | .extractBits _ _ _ | .writeBits _ _ _ | .countBits => (true, false, false)

/-- The words R78 lists as reserved, in its order, on the numbers `grp`, `op`, `mod` and `arg` of the word. -/
def listedReserved (c : Cmd) : Prop :=
  let grp := c.toNat / 2 ^ 20
  let op := c.toNat / 2 ^ 16 % 16
  let mod := c.toNat / 2 ^ 12 % 16
  let arg := c.toNat % 2 ^ 12
  7 ≤ grp
  ∨ (grp ≤ 2 ∧ 8 ≤ op ∧ op ≤ 11)
  ∨ (grp = 3 ∧ op ≠ 4 ∧ op ≠ 2)
  ∨ (grp = 4 ∧ 8 ≤ op)
  ∨ (grp = 5 ∧ op ≠ 0)
  ∨ (grp = 6 ∧ op ≠ 0 ∧ op ≠ 1 ∧ op ≠ 2)
  ∨ (grp = 0 ∧ (4 ≤ mod ∨ 256 ≤ arg))
  ∨ (grp = 1 ∧ (4 ≤ mod ∨ arg ≠ 0))
  ∨ (2 ≤ grp ∧ grp ≤ 5 ∧ (mod ≠ 0 ∨ arg ≠ 0))
  ∨ (grp = 6 ∧ op ≤ 1 ∧ 2 ≤ mod)
  ∨ (grp = 6 ∧ op = 2 ∧ (mod ≠ 0 ∨ arg ≠ 0))

end Sys2Proof.Claims

open Sys2Proof.Claims


/-! ## Encoding -/

/-- No bit of an encoding is dropped (R60 to R69, R74, R75). -/
def Obligations.DecodeInvertsEncode : Prop :=
  ∀ i : Instr, i.wellFormed = true → decode (encode i) = .ok i

/-- The other direction: no two words decode to one command (R76), and a decoded command fits its word. -/
def Obligations.EncodeInvertsDecode : Prop :=
  ∀ (c : Cmd) (i : Instr), decode c = .ok i → i.wellFormed = true ∧ encode i = c

/-- R76. The decoder works on the four fields; the table works on mask and match: they agree on all 2^24 words. -/
def Obligations.DecoderFollowsOpcodeTable : Prop :=
  ∀ c : Cmd,
    (∀ i, decode c = .ok i →
      ∃ r ∈ opcodeTable, r.mnemonic = i.mnemonic ∧ c &&& r.mask = r.pattern ∧
        ∀ r' ∈ opcodeTable, c &&& r'.mask = r'.pattern → r' = r) ∧
    (∀ e, decode c = .error e →
      (∀ r ∈ opcodeTable, c &&& r.mask ≠ r.pattern) ∧
      ∀ s : State, s.inp.cmd = c → runSampled s = .next { s with out := ⟨none, none, none, some .reservedCommand⟩ })

/-- R78, its list written out on the numbers of the four fields. -/
def Obligations.ReservedWordsAreTheListedOnes : Prop :=
  ∀ s : State,
    ((∃ e, decode s.inp.cmd = .error e) ↔ listedReserved s.inp.cmd) ∧
    (listedReserved s.inp.cmd →
      runSampled s = .next { s with out := ⟨none, none, none, some .reservedCommand⟩ })

/-- The words of the table in R81. -/
def Obligations.PrintedWordsDecode : Prop :=
  decode 0x000001#24 = .ok (.and .logicalLeft 1) ∧ decode 0x0D3000#24 = .ok (.mov .rotateRight 0) ∧
  decode 0x100000#24 = .ok (.andRs .logicalLeft) ∧ decode 0x2D0000#24 = .ok .iMov ∧
  decode 0x340000#24 = .ok .adrAdd ∧ decode 0x420000#24 = .ok .umaal ∧ decode 0x500000#24 = .ok .commit ∧
  decode 0x600408#24 = .ok (.extractBits .word 8 16) ∧ decode 0x601308#24 = .ok (.extractBits .imm12 8 12) ∧
  decode 0x610304#24 = .ok (.writeBits .word 4 12) ∧ decode 0x620000#24 = .ok .countBits

/-! ## The transaction -/

/-- R44 and R45. What `pending` and `sample` add around `exec` is the model's host interface (log 3, log 4). -/
def Obligations.StepRunsDecodedCommand : Prop :=
  ∀ (s : State) (t : Transaction) (rest : List Transaction) (p : InPorts) (i : Instr),
    haltingError s = none → s.pending = t :: rest → t.sample s = some p → decode p.cmd = .ok i →
    step s = exec i { s with inp := p, pending := rest }

/-- The model's own loading of a command (log 9); the ports of R81's last sentence. -/
def Obligations.PlacedWordRunsNext : Prop :=
  ∀ (s : State) (w : Nat) (i : Instr), w < 2 ^ 24 → decode (BitVec.ofNat 24 w) = .ok i →
    step (s.withFetchWord 24 w) =
      exec i { s with inp := { cmd := BitVec.ofNat 24 w }, out := { s.out with err := none } }

/-- R43 and R279: the block never truncates an input. -/
def Obligations.OwnPortValuesArriveUnchanged : Prop :=
  ∀ (s : State) (cmd : Cmd) (rn rm rs ra rdhi rdlo : Word) (imm12 : Imm12) (fin : FlagBits),
    Transaction.sample ⟨cmd, .value rn, .value rm, .value rs, .value ra, .value rdhi, .value rdlo, imm12, .value fin⟩ s
      = some ⟨cmd, rn, rm, rs, ra, rdhi, rdlo, imm12, fin⟩

/-- R44, R45: transactions run one at a time in the order presented; the parameters of R7 are no state. -/
def Obligations.StepTakesOneTransaction : Prop :=
  ∀ s s' : State, step s = .next s' →
    s'.params = s.params ∧
    ∃ t, s.pending = t :: s'.pending ∧ s'.inp.cmd = t.cmd ∧ s'.inp.imm12 = t.imm12 ∧ t.sample s = some s'.inp

/-- R273 (the spec marks it derived): a run is the finite list of transactions the caller chose. That no transaction means no step is the model's choice (log 3). -/
def Obligations.RunEndsWithTheTransactions : Prop :=
  (∀ (k : Nat) (s s' : State), Sys2Proof.core.run k s = .next s' →
    k ≤ s.pending.length ∧ s'.pending = s.pending.drop k) ∧
  (∀ s : State, haltingError s = none → s.pending = [] → step s = .refused .noTransaction)

/-- R276, U5, U11 for the refusal; R41, R244 and R248 for the ports that are not read. How a caller drives a port from an output is the model's own form (log 4). -/
def Obligations.CallerNeverDrivesFromAnEmptyOutput : Prop :=
  (∀ (s : State) (t : Transaction) (rest : List Transaction), haltingError s = none → s.pending = t :: rest →
    (step s = .refused .outputHasNoValue ↔ readsEmptyOutput t s) ∧
    (¬ readsEmptyOutput t s →
      ∃ p, step s = runSampled { s with inp := p, pending := rest } ∧ p.cmd = t.cmd ∧ p.imm12 = t.imm12 ∧
        (∀ v, (t.rn.sample s = some v → p.rn = v) ∧ (t.rm.sample s = some v → p.rm = v) ∧
          (t.rs.sample s = some v → p.rs = v) ∧ (t.ra.sample s = some v → p.ra = v) ∧
          (t.rdhi.sample s = some v → p.rdhi = v) ∧ (t.rdlo.sample s = some v → p.rdlo = v)) ∧
        (∀ f, t.fin.sample s = some f → p.fin = f))) ∧
  (∀ (s u : State) (i : Instr) (t : Transaction) (rest : List Transaction),
    (i = .adrAdd ∨ i = .adrSub ∨ i = .umaal ∨ (i = .mls ∧ s.params.mlsReportsFlags = false) ∨
      (∃ w a b, i = .extractBits w a b) ∨ (∃ w a b, i = .writeBits w a b) ∨ i = .countBits) →
    exec i s = .next u →
    u.out.fvalid = false ∧ u.out.fout = none ∧
    (u.pending = t :: rest → t.cmd = 0x500000#24 → t.fin = .fout → haltingError u = none →
      step u = .refused .outputHasNoValue))

/-- R247: the choice belongs to the caller and changes nothing in the block. That a halt is a fault of the step after the failing one is the model's reading (log 1, log 2). -/
def Obligations.OnlyAHaltingCallerFaults : Prop :=
  ∀ (s : State) (e : ErrorKind),
    step s = .fault (.haltedByCaller e) ↔ (s.params.errorDisposition = .halt ∧ s.out.err = some e)

/-- R247 and R273 (derived by the spec): a faulted run is never final. That a halt ends the run in a fault is log 1. -/
def Obligations.HaltingCallerEndsAtTheFirstError : Prop :=
  ∀ (k : Nat) (s s' : State), s.params.errorDisposition = .halt → Sys2Proof.core.run k s = .next s' →
    (∀ u ∈ (trace k s).dropLast, u.out.err = none) ∧
    (faultedRun k s = true ↔ 0 < k ∧ s'.out.err ≠ none) ∧
    (s'.final = true → finalRun k s = true)

/-- R246: no error latch, no locked state. -/
def Obligations.FailingTransactionLeavesNoTrace : Prop :=
  ∀ (s u : State) (t : Transaction) (rest : List Transaction),
    step s = .next u → u.out.err ≠ none → u.pending = t :: rest → t.own = true →
    s.params.errorDisposition = .undefinedFault →
    step u = step { s with pending := t :: rest }

/-- R275, its second sentence: "never the candidate set of the command before it". -/
def Obligations.CommandsIgnoreEarlierOutputs : Prop :=
  ∀ (i : Instr) (s : State) (o : OutPorts), exec i { s with out := o } = exec i s

/-! ## The register NZCV and the output ports -/

/-- R271, with `RESET_NZCV` any value and at its default. -/
def Obligations.ResetLeavesSpecifiedState : Prop :=
  (∀ p : Params,
    (State.resetWith p).nzcv = p.resetNzcv ∧
    (State.resetWith p).out.result = none ∧ (State.resetWith p).out.resulthi = none ∧
    (State.resetWith p).out.fout = none ∧
    (State.resetWith p).out.rvalid = false ∧ (State.resetWith p).out.hvalid = false ∧
    (State.resetWith p).out.fvalid = false ∧ errorCode (State.resetWith p).out.err = 0 ∧
    nzcvPort (State.resetWith p) = flagSet p.resetNzcv.n p.resetNzcv.z p.resetNzcv.c p.resetNzcv.v) ∧
  State.reset.nzcv = ⟨false, false, false, false⟩ ∧ nzcvPort State.reset = 0

/-- R22 and R24. -/
def Obligations.FlagPackingIsNZCV : Prop :=
  (∀ f : Nzcv, (packFlags f).getLsbD 3 = f.n ∧ (packFlags f).getLsbD 2 = f.z ∧ (packFlags f).getLsbD 1 = f.c ∧
    (packFlags f).getLsbD 0 = f.v ∧ unpackFlags (packFlags f) = f) ∧
  (∀ b : FlagBits, packFlags (unpackFlags b) = b) ∧
  packFlags ⟨true, false, true, false⟩ = 0xA ∧
  (∀ s : State, nzcvPort s = flagSet s.nzcv.n s.nzcv.z s.nzcv.c s.nzcv.v)

/-- R21, over every step and all 2^24 command words. -/
def Obligations.OnlyCommitWritesNZCV : Prop :=
  ∀ s s' : State, step s = .next s' →
    (s'.inp.cmd = 0x500000#24 →
      s'.nzcv = ⟨s'.inp.fin.getLsbD 3, s'.inp.fin.getLsbD 2, s'.inp.fin.getLsbD 1, s'.inp.fin.getLsbD 0⟩) ∧
    (s'.inp.cmd ≠ 0x500000#24 → s'.nzcv = s.nzcv)

/-- R53: the only ordering a program can rely on is on `NZCV`, and it is sequential. -/
def Obligations.FlagsAreThoseOfTheLatestCommit : Prop :=
  ∀ (k : Nat) (s s' : State), Sys2Proof.core.run k s = .next s' → s'.nzcv = latestCommit s.nzcv (trace k s)

/-- R23 (d). -/
def Obligations.CommandsReadOnlyCAndV : Prop :=
  ∀ (i : Instr) (s : State) (n z : Bool),
    outputs i s ≠ none ∧ outputs i { s with nzcv := ⟨n, z, s.nzcv.c, s.nzcv.v⟩ } = outputs i s

/-- R272 (2), which the spec marks derived. -/
def Obligations.StoredFlagsReachOnlyListedOutputs : Prop :=
  ∀ (i : Instr) (s : State) (f : Nzcv) (b : Bool),
    (resultUsesCarry i = false → ∃ o o', outputs i s = some o ∧ outputs i { s with nzcv := f } = some o' ∧
      o'.result = o.result ∧ o'.resulthi = o.resulthi) ∧
    (resultUsesCarry i = false → carryReachesFout s i = false →
      outputs i { s with nzcv := { s.nzcv with c := b } } = outputs i s ∧ outputs i s ≠ none) ∧
    (overflowReachesFout s.params i = false →
      outputs i { s with nzcv := { s.nzcv with v := b } } = outputs i s ∧ outputs i s ≠ none) ∧
    (carryReachesFout s i = true → argumentError i = none →
      ∃ o c, outputs i s = some o ∧ o.fout = some c ∧ c.getLsbD 1 = s.nzcv.c) ∧
    (overflowReachesFout s.params i = true → argumentError i = none →
      ∃ o c, outputs i s = some o ∧ o.fout = some c ∧ c.getLsbD 0 = s.nzcv.v) ∧
    (portsDetermine s.params i = true → outputs i { s with nzcv := f } = outputs i s ∧ outputs i s ≠ none)

/-- The last sentence of R41, which the spec marks derived (D27). How a caller drives a port is log 4. -/
def Obligations.UnusedPortsAreIgnored : Prop :=
  (∀ (i : Instr) (s : State) (q : InPorts), agreeOn (portUse i) s.inp q →
    ∃ t u, exec i s = .next t ∧ exec i { s with inp := q } = .next u ∧ u.out = t.out ∧ u.nzcv = t.nzcv) ∧
  (∀ (s : State) (t t' : Transaction) (rest : List Transaction) (i : Instr), decode t.cmd = .ok i →
    drivesAgree (portUse i) t t' →
    shown (step { s with pending := t :: rest }) = shown (step { s with pending := t' :: rest }) ∧
    (step { s with pending := t :: rest } = .refused .outputHasNoValue ↔
      step { s with pending := t' :: rest } = .refused .outputHasNoValue))

/-- R42, its second table and the sentence before it. -/
def Obligations.ValidBitsFollowTheTable : Prop :=
  ∀ (i : Instr) (s : State), ∃ t, exec i s = .next t ∧ t.out.err = argumentError i ∧
    (t.out.err = none → (t.out.rvalid, t.out.hvalid, t.out.fvalid) = validBits s.params i) ∧
    (t.out.err ≠ none → (t.out.rvalid, t.out.hvalid, t.out.fvalid) = (false, false, false)) ∧
    (t.out.rvalid = true ↔ t.out.result ≠ none) ∧ (t.out.hvalid = true ↔ t.out.resulthi ≠ none) ∧
    (t.out.fvalid = true ↔ t.out.fout ≠ none)

/-- The invariant `OutPorts.wellFormed` at reset. -/
def Obligations.ResetOutputsAreWellFormed : Prop :=
  ∀ p : Params, (State.resetWith p).out.wellFormed = true

/-- The invariant `OutPorts.wellFormed` after every step, from any state at all (R42, R243, R245). -/
def Obligations.StepKeepsOutputsWellFormed : Prop :=
  ∀ s s' : State, step s = .next s' →
    s'.out.wellFormed = true ∧ errorCode s'.out.err ≠ 3 ∧ (errorCode s'.out.err).toNat < 5 ∧
    (s'.out.err ≠ none → s'.nzcv = s.nzcv)

/-- R241 to R244, on the bits of the command word. -/
def Obligations.ErrorsAreExactlyTheListedCauses : Prop :=
  ∀ s : State,
    let c := s.inp.cmd.toNat
    ∃ t, runSampled s = .next t ∧
      (t.out.err = some .bitRange ↔
        (∃ i, decode s.inp.cmd = .ok i) ∧ (c / 2 ^ 16 = 0x60 ∨ c / 2 ^ 16 = 0x61) ∧
        (c % 64 > c / 64 % 64 ∨ c / 64 % 64 > if c / 2 ^ 12 % 2 = 0 then 32 else 12)) ∧
      (t.out.err = some .shiftAmountOutOfRange ↔
        (∃ i, decode s.inp.cmd = .ok i) ∧ c / 2 ^ 20 = 0 ∧ 32 ≤ c % 256) ∧
      t.out.err ≠ some .unknownShiftType ∧
      (t.out.err = some .reservedCommand ↔ ∀ r ∈ opcodeTable, s.inp.cmd &&& r.mask ≠ r.pattern)

/-- R245 and R248. A failing transaction is a next state (log 1); the codes are those of R240. -/
def Obligations.RaisingChangesOnlyErr : Prop :=
  (∀ s : State, (∃ e, decode s.inp.cmd = .error e) →
    runSampled s = .next { s with out := ⟨none, none, none, some .reservedCommand⟩ }) ∧
  (∀ (s : State) (i : Instr) (e : ErrorKind), decode s.inp.cmd = .ok i → argumentError i = some e →
    runSampled s = .next { s with out := ⟨none, none, none, some e⟩ }) ∧
  (∀ (s : State) (i : Instr), decode s.inp.cmd = .ok i → argumentError i = none →
    ∃ t, runSampled s = .next t ∧ t.out.err = none) ∧
  errorCode none = 0 ∧ errorCode (some .bitRange) = 1 ∧ errorCode (some .shiftAmountOutOfRange) = 2 ∧
  errorCode (some .unknownShiftType) = 3 ∧ errorCode (some .reservedCommand) = 4

/-- R256 (the interleaving is marked derived by the spec). -/
def Obligations.BlocksOfDifferentCoresAreIndependent : Prop :=
  ∀ (sys a b : System) (j k : Nat), j ≠ k → System.step j sys = .next a → System.step k a = .next b →
    (∀ m, m ≠ j → a[m]? = sys[m]?) ∧
    ∃ c, System.step k sys = .next c ∧ System.step j c = .next b

/-! ## The barrel shifter, the adder and the expander -/

/-- R111. -/
def Obligations.ShiftByZeroIsIdentityOrRRX : Prop :=
  ∀ (x : Word) (c : Bool),
    (∀ type : ShiftType, type ≠ .rotateRight → shiftC x type 0 c = ⟨x, c⟩) ∧
    (shiftC x .rotateRight 0 c).value.getLsbD 31 = c ∧
    (∀ i, i < 31 → (shiftC x .rotateRight 0 c).value.getLsbD i = x.getLsbD (i + 1)) ∧
    (shiftC x .rotateRight 0 c).carry = x.getLsbD 0

/-- R112. -/
def Obligations.LeftShiftMultiplies : Prop :=
  ∀ (x : Word) (n : Nat) (c : Bool), 1 ≤ n → n ≤ 31 →
    (shiftC x .logicalLeft n c).value.toNat = x.toNat * 2 ^ n % 2 ^ 32 ∧
    (shiftC x .logicalLeft n c).carry = x.getLsbD (32 - n)

/-- R113. -/
def Obligations.RightShiftDivides : Prop :=
  ∀ (x : Word) (n : Nat) (c : Bool), 1 ≤ n → n ≤ 31 →
    (shiftC x .logicalRight n c).value.toNat = x.toNat / 2 ^ n ∧
    (∀ i, 32 - n ≤ i → i ≤ 31 → (shiftC x .logicalRight n c).value.getLsbD i = false) ∧
    (shiftC x .logicalRight n c).carry = x.getLsbD (n - 1)

/-- R114. -/
def Obligations.ArithmeticShiftFloors : Prop :=
  ∀ (x : Word) (n : Nat) (c : Bool), 1 ≤ n → n ≤ 31 →
    (shiftC x .arithmeticRight n c).value = trunc32 (Int.fdiv x.toInt (2 ^ n)) ∧
    (∀ i, 32 - n ≤ i → i ≤ 31 → (shiftC x .arithmeticRight n c).value.getLsbD i = x.getLsbD 31) ∧
    (∀ i, i ≤ 31 - n → (shiftC x .arithmeticRight n c).value.getLsbD i = x.getLsbD (i + n)) ∧
    (shiftC x .arithmeticRight n c).carry = x.getLsbD (n - 1)

/-- R115, and `ror32` as R8 to R9's table of notation defines it. -/
def Obligations.RotateMovesEveryBit : Prop :=
  ∀ (x : Word) (n : Nat) (c : Bool), 1 ≤ n → n ≤ 31 →
    (∀ i, i < 32 → (shiftC x .rotateRight n c).value.getLsbD i = x.getLsbD ((i + n) % 32)) ∧
    (shiftC x .rotateRight n c).value.toNat = (x.toNat / 2 ^ n + x.toNat * 2 ^ (32 - n)) % 2 ^ 32 ∧
    (shiftC x .rotateRight n c).carry = (shiftC x .rotateRight n c).value.getLsbD 31 ∧
    (shiftC x .rotateRight n c).carry = x.getLsbD (n - 1)

/-- R116 and R117. -/
def Obligations.LongShiftsSaturate : Prop :=
  ∀ (x : Word) (n : Nat) (c : Bool), 32 ≤ n →
    shiftC x .logicalLeft n c = ⟨0, false⟩ ∧ shiftC x .logicalRight n c = ⟨0, false⟩ ∧
    (shiftC x .arithmeticRight n c).carry = x.getLsbD 31 ∧
    (x.getLsbD 31 = false → (shiftC x .arithmeticRight n c).value = 0x00000000#32) ∧
    (x.getLsbD 31 = true → (shiftC x .arithmeticRight n c).value = 0xFFFFFFFF#32)

/-- R118 and decision D19 (conflict C4). -/
def Obligations.LongRotateReduces : Prop :=
  ∀ (x : Word) (n : Nat) (c c' : Bool), 32 ≤ n →
    (∀ i, i < 32 → (shiftC x .rotateRight n c).value.getLsbD i = x.getLsbD ((i + n % 32) % 32)) ∧
    (shiftC x .rotateRight n c).carry = (shiftC x .rotateRight n c).value.getLsbD 31 ∧
    (n % 32 = 0 → shiftC x .rotateRight n c = ⟨x, x.getLsbD 31⟩) ∧
    (∀ type : ShiftType, shiftC x type n c = shiftC x type n c')

/-- R120, both statements of each output. -/
def Obligations.AdderCarryAndOverflow : Prop :=
  ∀ (x y : Word) (c : Bool),
    (addWithCarry x y c).result.toNat = (x.toNat + y.toNat + c.toNat) % 2 ^ 32 ∧
    ((addWithCarry x y c).carry = true ↔ 2 ^ 32 ≤ x.toNat + y.toNat + c.toNat) ∧
    ((addWithCarry x y c).overflow = true ↔
      x.toInt + y.toInt + c.toNat < -2 ^ 31 ∨ 2 ^ 31 - 1 < x.toInt + y.toInt + c.toNat) ∧
    ((addWithCarry x y c).overflow = true ↔
      x.getLsbD 31 = y.getLsbD 31 ∧ (addWithCarry x y c).result.getLsbD 31 ≠ x.getLsbD 31)

/-- R121; the carry as "not borrow" is marked derived by the spec. -/
def Obligations.SubtractionIsNotBorrow : Prop :=
  ∀ (x y : Word) (c : Bool),
    (∀ a : Sum, ∀ u v : Int,
      (a = adderSub x y ∧ u = x.toNat - y.toNat ∧ v = x.toInt - y.toInt) ∨
      (a = adderSbc x y c ∧ u = x.toNat - y.toNat - (1 - c.toNat) ∧ v = x.toInt - y.toInt - (1 - c.toNat)) ∨
      (a = adderRsb x y ∧ u = y.toNat - x.toNat ∧ v = y.toInt - x.toInt) ∨
      (a = adderRsc x y c ∧ u = y.toNat - x.toNat - (1 - c.toNat) ∧ v = y.toInt - x.toInt - (1 - c.toNat)) →
      a.result = trunc32 u ∧ (a.carry = true ↔ 0 ≤ u) ∧ (a.overflow = true ↔ v < -2 ^ 31 ∨ 2 ^ 31 - 1 < v))

/-- The carry chain of R275, on the adder. -/
def Obligations.AddThenAdcIsWideAddition : Prop :=
  ∀ a b : BitVec 64,
    let lo := adderAdd (lowHalf a) (lowHalf b)
    let hi := adderAdc (highHalf a) (highHalf b) lo.carry
    joined hi.result lo.result = (a.toNat + b.toNat) % 2 ^ 64

/-- R122 with the layout of R70. -/
def Obligations.ExpanderRotatesTheByte : Prop :=
  ∀ (m : Imm12) (c : Bool),
    let r := m.toNat / 2 ^ 8
    let b := m.toNat % 2 ^ 8
    (r = 0 → (processImm12 m c).value.toNat = b ∧ (processImm12 m c).carry = c) ∧
    (r ≠ 0 →
      (∀ i, i < 32 → (processImm12 m c).value.getLsbD i = b.testBit ((i + 2 * r) % 32)) ∧
      (processImm12 m c).carry = (processImm12 m c).value.getLsbD 31 ∧
      processImm12 m c = shiftC (BitVec.ofNat 32 b) .rotateRight (2 * r) c)

/-- R123, which the spec marks derived. A bit of `b` above bit 7 is 0, which is bit 12 and above of the immediate. -/
def Obligations.ExpanderCarryFacts : Prop :=
  (∀ (m : Imm12) (c c' : Bool),
    let r := m.toNat / 2 ^ 8
    (r ≠ 0 → (processImm12 m c).carry = m.getLsbD (2 * r - 1 + if 8 ≤ 2 * r - 1 then 12 else 0) ∧
      ((processImm12 m c).carry = true → 1 ≤ r ∧ r ≤ 4) ∧ processImm12 m c = processImm12 m c') ∧
    (processImm12 m c).value = (processImm12 m c').value ∧
    ((processImm12 m c).value = 0xFF#32 → m = 0x0FF#12)) ∧
  (∀ c : Bool, processImm12 0x000#12 c = ⟨0, c⟩ ∧ processImm12 0x100#12 c = ⟨0, false⟩ ∧
    processImm12 0xF00#12 c = ⟨0, false⟩)

/-! ## The bit-field accessors -/

/-- R91 (which `writeBits` shares) and R92. -/
def Obligations.ExtractReadsTheField : Prop :=
  ∀ (w : Nat) (c : BitVec w) (start stop : Nat),
    (extractBits c start stop = .error .bitRange ↔ start > stop ∨ stop > w) ∧
    (start ≤ stop → stop ≤ w → ∃ n, extractBits c start stop = .ok n ∧ n < 2 ^ (stop - start) ∧
      n = c.toNat / 2 ^ start % 2 ^ (stop - start) ∧
      ∀ i, n.testBit i = (decide (i < stop - start) && c.getLsbD (start + i))) ∧
    (∀ x, (writeBits c x start stop = .error .bitRange ↔ start > stop ∨ stop > w)) ∧
    (start ≤ w → extractBits c start start = .ok 0)

/-- R93; the bad bounds are in the statement before. -/
def Obligations.WriteReplacesTheField : Prop :=
  ∀ (w : Nat) (c : BitVec w) (x start stop : Nat), start ≤ stop → stop ≤ w →
    ∃ n, writeBits c x start stop = .ok n ∧ n < 2 ^ w ∧
      (∀ i, start ≤ i → i < stop → n.testBit i = x.testBit (i - start)) ∧
      (∀ i, i < start ∨ stop ≤ i → n.testBit i = c.getLsbD i) ∧
      (start = stop → n = c.toNat)

/-- R95 (a), (b), (c), for containers of every width. -/
def Obligations.AccessorLaws : Prop :=
  (∀ v : Word, extractBits v 0 32 = .ok v.toNat) ∧
  (∀ (w : Nat) (c : BitVec w) (x start stop : Nat), start ≤ stop → stop ≤ w →
    ∃ n, writeBits c x start stop = .ok n ∧
      extractBits (BitVec.ofNat w n) start stop = .ok (x % 2 ^ (stop - start)) ∧
      ∀ i, i < start ∨ stop ≤ i → (BitVec.ofNat w n).getLsbD i = c.getLsbD i) ∧
  (∀ (w : Nat) (c : BitVec w) (start stop : Nat), start ≤ stop → stop ≤ w →
    ∃ n, extractBits c start stop = .ok n ∧ writeBits c n start stop = .ok c.toNat)

/-- R94: the loop is the source's method, the value is the population count. -/
def Obligations.CountIsKernighans : Prop :=
  ∀ v : Word,
    countBits v = ((List.range 32).map fun i => (v.getLsbD i).toNat).sum ∧ countBits v ≤ 32 ∧
    ∀ k, 32 ≤ k → kernighanCount k v.toNat = countBits v

/-- R96, which the spec marks derived. -/
def Obligations.FieldReadsAreExtractions : Prop :=
  (∀ m : Imm12, extractBits m 8 12 = .ok (rotationNibble m) ∧ extractBits m 0 8 = .ok (baseByte m).toNat) ∧
  (∀ s : State, extractBits s.inp.rs 0 8 = .ok (registerAmount s)) ∧
  (∀ (v : Word) (i : Nat), i < 32 → extractBits v i (i + 1) = .ok (v.getLsbD i).toNat)

/-! ## Data-processing commands -/

/-- R140, R141, R148 to R151. The formulas of EOR, ORR, BIC, MVN are those of the rules (log 10). -/
def Obligations.LiteralBitwiseCommands : Prop :=
  ∀ (type : ShiftType) (amt : Nat) (s : State),
    (amt < 32 →
      let o := shiftC s.inp.rm type amt s.nzcv.c
      bitwise (.and type amt) s (s.inp.rn &&& o.value) o.carry ∧
      bitwise (.eor type amt) s (s.inp.rn ^^^ o.value) o.carry ∧
      bitwise (.orr type amt) s (s.inp.rn ||| o.value) o.carry ∧
      bitwise (.mov type amt) s (o.value) o.carry ∧
      bitwise (.bic type amt) s (s.inp.rn &&& ~~~o.value) o.carry ∧
      bitwise (.mvn type amt) s (~~~o.value) o.carry) ∧
    (32 ≤ amt →
      raises (.and type amt) s .shiftAmountOutOfRange ∧
      raises (.eor type amt) s .shiftAmountOutOfRange ∧
      raises (.orr type amt) s .shiftAmountOutOfRange ∧
      raises (.mov type amt) s .shiftAmountOutOfRange ∧
      raises (.bic type amt) s .shiftAmountOutOfRange ∧
      raises (.mvn type amt) s .shiftAmountOutOfRange) ∧
    (amt < 256 →
      decode (shiftWord 0x000000 type amt) = .ok (.and type amt) ∧
      decode (shiftWord 0x010000 type amt) = .ok (.eor type amt) ∧
      decode (shiftWord 0x0c0000 type amt) = .ok (.orr type amt) ∧
      decode (shiftWord 0x0d0000 type amt) = .ok (.mov type amt) ∧
      decode (shiftWord 0x0e0000 type amt) = .ok (.bic type amt) ∧
      decode (shiftWord 0x0f0000 type amt) = .ok (.mvn type amt))

/-- R142 to R147. -/
def Obligations.LiteralArithmeticCommands : Prop :=
  ∀ (type : ShiftType) (amt : Nat) (s : State),
    (amt < 32 →
      let o := shiftC s.inp.rm type amt s.nzcv.c
      arithmetic (.sub type amt) s (addWithCarry s.inp.rn (~~~o.value) true)
        (s.inp.rn.toNat - o.value.toNat) ∧
      arithmetic (.rsb type amt) s (addWithCarry (~~~s.inp.rn) o.value true)
        (o.value.toNat - s.inp.rn.toNat) ∧
      arithmetic (.add type amt) s (addWithCarry s.inp.rn o.value false)
        (s.inp.rn.toNat + o.value.toNat) ∧
      arithmetic (.adc type amt) s (addWithCarry s.inp.rn o.value s.nzcv.c)
        (s.inp.rn.toNat + o.value.toNat + s.nzcv.c.toNat) ∧
      arithmetic (.sbc type amt) s (addWithCarry s.inp.rn (~~~o.value) s.nzcv.c)
        (s.inp.rn.toNat - o.value.toNat - (1 - s.nzcv.c.toNat)) ∧
      arithmetic (.rsc type amt) s (addWithCarry (~~~s.inp.rn) o.value s.nzcv.c)
        (o.value.toNat - s.inp.rn.toNat - (1 - s.nzcv.c.toNat))) ∧
    (32 ≤ amt →
      raises (.sub type amt) s .shiftAmountOutOfRange ∧
      raises (.rsb type amt) s .shiftAmountOutOfRange ∧
      raises (.add type amt) s .shiftAmountOutOfRange ∧
      raises (.adc type amt) s .shiftAmountOutOfRange ∧
      raises (.sbc type amt) s .shiftAmountOutOfRange ∧
      raises (.rsc type amt) s .shiftAmountOutOfRange) ∧
    (amt < 256 →
      decode (shiftWord 0x020000 type amt) = .ok (.sub type amt) ∧
      decode (shiftWord 0x030000 type amt) = .ok (.rsb type amt) ∧
      decode (shiftWord 0x040000 type amt) = .ok (.add type amt) ∧
      decode (shiftWord 0x050000 type amt) = .ok (.adc type amt) ∧
      decode (shiftWord 0x060000 type amt) = .ok (.sbc type amt) ∧
      decode (shiftWord 0x070000 type amt) = .ok (.rsc type amt))

/-- R152, R153, R160 to R163, with operand 2 of R125. -/
def Obligations.RegisterBitwiseCommands : Prop :=
  ∀ (type : ShiftType) (s : State),
    let o := registerOperand2 type s
    bitwise (.andRs type) s (s.inp.rn &&& o.value) o.carry ∧
    bitwise (.eorRs type) s (s.inp.rn ^^^ o.value) o.carry ∧
    bitwise (.orrRs type) s (s.inp.rn ||| o.value) o.carry ∧
    bitwise (.movRs type) s (o.value) o.carry ∧
    bitwise (.bicRs type) s (s.inp.rn &&& ~~~o.value) o.carry ∧
    bitwise (.mvnRs type) s (~~~o.value) o.carry ∧
    decode (shiftWord 0x100000 type 0) = .ok (.andRs type) ∧
    decode (shiftWord 0x110000 type 0) = .ok (.eorRs type) ∧
    decode (shiftWord 0x1c0000 type 0) = .ok (.orrRs type) ∧
    decode (shiftWord 0x1d0000 type 0) = .ok (.movRs type) ∧
    decode (shiftWord 0x1e0000 type 0) = .ok (.bicRs type) ∧
    decode (shiftWord 0x1f0000 type 0) = .ok (.mvnRs type)

/-- R154 to R159, with operand 2 of R125. -/
def Obligations.RegisterArithmeticCommands : Prop :=
  ∀ (type : ShiftType) (s : State),
    let o := registerOperand2 type s
    arithmetic (.subRs type) s (addWithCarry s.inp.rn (~~~o.value) true)
      (s.inp.rn.toNat - o.value.toNat) ∧
    arithmetic (.rsbRs type) s (addWithCarry (~~~s.inp.rn) o.value true)
      (o.value.toNat - s.inp.rn.toNat) ∧
    arithmetic (.addRs type) s (addWithCarry s.inp.rn o.value false)
      (s.inp.rn.toNat + o.value.toNat) ∧
    arithmetic (.adcRs type) s (addWithCarry s.inp.rn o.value s.nzcv.c)
      (s.inp.rn.toNat + o.value.toNat + s.nzcv.c.toNat) ∧
    arithmetic (.sbcRs type) s (addWithCarry s.inp.rn (~~~o.value) s.nzcv.c)
      (s.inp.rn.toNat - o.value.toNat - (1 - s.nzcv.c.toNat)) ∧
    arithmetic (.rscRs type) s (addWithCarry (~~~s.inp.rn) o.value s.nzcv.c)
      (o.value.toNat - s.inp.rn.toNat - (1 - s.nzcv.c.toNat)) ∧
    decode (shiftWord 0x120000 type 0) = .ok (.subRs type) ∧
    decode (shiftWord 0x130000 type 0) = .ok (.rsbRs type) ∧
    decode (shiftWord 0x140000 type 0) = .ok (.addRs type) ∧
    decode (shiftWord 0x150000 type 0) = .ok (.adcRs type) ∧
    decode (shiftWord 0x160000 type 0) = .ok (.sbcRs type) ∧
    decode (shiftWord 0x170000 type 0) = .ok (.rscRs type)

/-- R180, R181, R188 to R191. -/
def Obligations.ImmediateBitwiseCommands : Prop :=
  (∀ s : State,
    let o := processImm12 s.inp.imm12 s.nzcv.c
    bitwise .iAnd s (s.inp.rn &&& o.value) o.carry ∧
    bitwise .iEor s (s.inp.rn ^^^ o.value) o.carry ∧
    bitwise .iOrr s (s.inp.rn ||| o.value) o.carry ∧
    bitwise .iMov s (o.value) o.carry ∧
    bitwise .iBic s (s.inp.rn &&& ~~~o.value) o.carry ∧
    bitwise .iMvn s (~~~o.value) o.carry) ∧
  decode 0x200000#24 = .ok .iAnd ∧
  decode 0x210000#24 = .ok .iEor ∧
  decode 0x2c0000#24 = .ok .iOrr ∧
  decode 0x2d0000#24 = .ok .iMov ∧
  decode 0x2e0000#24 = .ok .iBic ∧
  decode 0x2f0000#24 = .ok .iMvn

/-- R182 to R187. -/
def Obligations.ImmediateArithmeticCommands : Prop :=
  (∀ s : State,
    let o := processImm12 s.inp.imm12 s.nzcv.c
    arithmetic .iSub s (addWithCarry s.inp.rn (~~~o.value) true)
      (s.inp.rn.toNat - o.value.toNat) ∧
    arithmetic .iRsb s (addWithCarry (~~~s.inp.rn) o.value true)
      (o.value.toNat - s.inp.rn.toNat) ∧
    arithmetic .iAdd s (addWithCarry s.inp.rn o.value false)
      (s.inp.rn.toNat + o.value.toNat) ∧
    arithmetic .iAdc s (addWithCarry s.inp.rn o.value s.nzcv.c)
      (s.inp.rn.toNat + o.value.toNat + s.nzcv.c.toNat) ∧
    arithmetic .iSbc s (addWithCarry s.inp.rn (~~~o.value) s.nzcv.c)
      (s.inp.rn.toNat - o.value.toNat - (1 - s.nzcv.c.toNat)) ∧
    arithmetic .iRsc s (addWithCarry (~~~s.inp.rn) o.value s.nzcv.c)
      (o.value.toNat - s.inp.rn.toNat - (1 - s.nzcv.c.toNat))) ∧
  decode 0x220000#24 = .ok .iSub ∧
  decode 0x230000#24 = .ok .iRsb ∧
  decode 0x240000#24 = .ok .iAdd ∧
  decode 0x250000#24 = .ok .iAdc ∧
  decode 0x260000#24 = .ok .iSbc ∧
  decode 0x270000#24 = .ok .iRsc

/-! ## ADR, the multiplies, the flag commit and the bit-field commands -/

/-- R192 to R194; `ADR_ALIGNS_BASE` is a parameter of the state (log 7). -/
def Obligations.AddressCommands : Prop :=
  (∀ s : State,
    let base : Nat := if s.params.adrAlignsBase then s.inp.rn.toNat - s.inp.rn.toNat % 4 else s.inp.rn.toNat
    let imm : Nat := (processImm12 s.inp.imm12 s.nzcv.c).value.toNat
    completes .adrAdd s (some (BitVec.ofNat 32 ((base + imm) % 2 ^ 32))) none none ∧
    completes .adrSub s (some (BitVec.ofNat 32 ((base + 2 ^ 32 - imm) % 2 ^ 32))) none none) ∧
  (∀ (s : State) (b : Bool), s.inp.rn.toNat % 4 = 0 →
    outputs .adrAdd { s with params := { s.params with adrAlignsBase := b } } = outputs .adrAdd s ∧
    outputs .adrSub { s with params := { s.params with adrAlignsBase := b } } = outputs .adrSub s) ∧
  decode 0x340000#24 = .ok .adrAdd ∧ decode 0x320000#24 = .ok .adrSub

/-- R213, R214, R216; `MLS_REPORTS_FLAGS` is a parameter of the state (log 8). -/
def Obligations.ShortMultiplyCommands : Prop :=
  (∀ s : State,
    let mul := BitVec.ofNat 32 (s.inp.rn.toNat * s.inp.rm.toNat)
    let mla := BitVec.ofNat 32 (s.inp.rn.toNat * s.inp.rm.toNat + s.inp.ra.toNat)
    let mls := trunc32 (s.inp.ra.toNat - s.inp.rn.toNat * s.inp.rm.toNat)
    completes .mul s (some mul) none (some (candidate mul s.nzcv.c s.nzcv.v)) ∧
    completes .mla s (some mla) none (some (candidate mla s.nzcv.c s.nzcv.v)) ∧
    completes .mls s (some mls) none
      (if s.params.mlsReportsFlags then some (candidate mls s.nzcv.c s.nzcv.v) else none)) ∧
  decode 0x400000#24 = .ok .mul ∧ decode 0x410000#24 = .ok .mla ∧ decode 0x430000#24 = .ok .mls

/-- R215, R217, R218. -/
def Obligations.UnsignedWideMultiplyCommands : Prop :=
  (∀ s : State,
    widening .umull s (s.inp.rn.toNat * s.inp.rm.toNat) true ∧
    widening .umlal s (s.inp.rn.toNat * s.inp.rm.toNat + (s.inp.rdhi.toNat * 2 ^ 32 + s.inp.rdlo.toNat)) true ∧
    widening .umaal s (s.inp.rn.toNat * s.inp.rm.toNat + s.inp.rdhi.toNat + s.inp.rdlo.toNat) false) ∧
  decode 0x440000#24 = .ok .umull ∧ decode 0x450000#24 = .ok .umlal ∧ decode 0x420000#24 = .ok .umaal

/-- R219 and R220. -/
def Obligations.SignedWideMultiplyCommands : Prop :=
  (∀ s : State,
    let acc : Int := s.inp.rdhi.toNat * 2 ^ 32 + s.inp.rdlo.toNat
    widening .smull s (s.inp.rn.toInt * s.inp.rm.toInt) true ∧
    widening .smlal s (s.inp.rn.toInt * s.inp.rm.toInt + acc) true ∧
    widening .smlal s
      (s.inp.rn.toInt * s.inp.rm.toInt + (if s.inp.rdhi.getLsbD 31 then acc - 2 ^ 64 else acc)) true) ∧
  decode 0x460000#24 = .ok .smull ∧ decode 0x470000#24 = .ok .smlal

/-- R221 (a) to (e) and (g), which the spec marks derived. -/
def Obligations.MultiplyLaws : Prop :=
  ∀ s : State, ∃ mul umull smull,
    outputs .mul s = some mul ∧ outputs .umull s = some umull ∧ outputs .smull s = some smull ∧
    mul.result = umull.result ∧ mul.result = smull.result ∧
    outputs .mla { s with inp := { s.inp with ra := 0 } } = some mul ∧
    (∃ mls lo, outputs .mls s = some mls ∧ mul.result = some lo ∧
      mls.result = some (trunc32 (s.inp.ra.toNat - lo.toNat))) ∧
    outputs .umlal { s with inp := { s.inp with rdhi := 0, rdlo := 0 } } = some umull ∧
    outputs .smlal { s with inp := { s.inp with rdhi := 0, rdlo := 0 } } = some smull ∧
    outputs .umaal { s with inp := { s.inp with rdhi := 0, rdlo := 0 } } =
      some ⟨umull.result, umull.resulthi, none, none⟩ ∧
    s.inp.rn.toNat * s.inp.rm.toNat + s.inp.rdhi.toNat + s.inp.rdlo.toNat ≤ 2 ^ 64 - 1 ∧
    (∃ uhi, umull.resulthi = some uhi ∧
      smull.resulthi = some (trunc32 ((uhi.toNat : Int)
        - (if s.inp.rn.getLsbD 31 then (s.inp.rm.toNat : Int) else 0)
        - (if s.inp.rm.getLsbD 31 then (s.inp.rn.toNat : Int) else 0))))

/-- R230. -/
def Obligations.CommitReplacesTheFlags : Prop :=
  (∀ s : State, ∃ t, exec .commit s = .next t ∧
    t = { s with nzcv := ⟨s.inp.fin.getLsbD 3, s.inp.fin.getLsbD 2, s.inp.fin.getLsbD 1, s.inp.fin.getLsbD 0⟩
                 out := ⟨none, none, none, none⟩ } ∧
    nzcvPort t = s.inp.fin) ∧
  decode 0x500000#24 = .ok .commit

/-- R97 and R98, the written container given as its bits above, in and below the field. -/
def Obligations.BitFieldCommands : Prop :=
  (∀ (s : State) (w : Container) (start stop : Nat),
    let width : Nat := match w with | .word => 32 | .imm12 => 12
    let c : Nat := match w with | .word => s.inp.rn.toNat | .imm12 => s.inp.imm12.toNat
    let len := stop - start
    (start ≤ stop ∧ stop ≤ width →
      completes (.extractBits w start stop) s (some (BitVec.ofNat 32 (c / 2 ^ start % 2 ^ len))) none none ∧
      completes (.writeBits w start stop) s (some (BitVec.ofNat 32
        (c / 2 ^ stop * 2 ^ stop + s.inp.rm.toNat % 2 ^ len * 2 ^ start + c % 2 ^ start))) none none) ∧
    (start > stop ∨ stop > width →
      raises (.extractBits w start stop) s .bitRange ∧ raises (.writeBits w start stop) s .bitRange)) ∧
  (∀ (w : Container) (start stop : Nat), start < 64 → stop < 64 →
    decode (fieldWord 0x600000 w start stop) = .ok (.extractBits w start stop) ∧
    decode (fieldWord 0x610000 w start stop) = .ok (.writeBits w start stop))

/-- R99. -/
def Obligations.CountBitsCommand : Prop :=
  (∀ s : State, completes .countBits s
    (some (BitVec.ofNat 32 ((List.range 32).map fun i => (s.inp.rn.getLsbD i).toNat).sum)) none none) ∧
  decode 0x620000#24 = .ok .countBits
end

