-- ==== Sys2Proof/Laws/Encoding.lean ====
section
/-! SUPPORT. A command word is its four fields (spec/30_encoding.md R60), and the small fields are read back. -/

namespace Sys2Proof

@[simp] theorem grpOf_cmdOf (g o m : BitVec 4) (a : BitVec 12) : grpOf (cmdOf g o m a) = g := by
  ext i hi
  simp only [grpOf, cmdOf, BitVec.getElem_extractLsb', BitVec.getLsbD_append]
  simp [show ¬ 20 + i < 12 by omega, show ¬ 20 + i - 12 < 4 by omega, show ¬ 20 + i - 12 - 4 < 4 by omega,
    show 20 + i - 12 - 4 - 4 = i by omega, hi]

@[simp] theorem opOf_cmdOf (g o m : BitVec 4) (a : BitVec 12) : opOf (cmdOf g o m a) = o := by
  ext i hi
  simp only [opOf, cmdOf, BitVec.getElem_extractLsb', BitVec.getLsbD_append]
  simp [show ¬ 16 + i < 12 by omega, show ¬ 16 + i - 12 < 4 by omega,
    show 16 + i - 12 - 4 = i by omega, hi]

@[simp] theorem modOf_cmdOf (g o m : BitVec 4) (a : BitVec 12) : modOf (cmdOf g o m a) = m := by
  ext i hi
  simp only [modOf, cmdOf, BitVec.getElem_extractLsb', BitVec.getLsbD_append]
  simp [show ¬ 12 + i < 12 by omega, show 12 + i - 12 = i by omega, hi]

@[simp] theorem argOf_cmdOf (g o m : BitVec 4) (a : BitVec 12) : argOf (cmdOf g o m a) = a := by
  ext i hi
  simp only [argOf, cmdOf, BitVec.getElem_extractLsb', BitVec.getLsbD_append]
  simp [hi]

/-- Every command word is the word of its own fields. -/
theorem cmdOf_fields (c : Cmd) : cmdOf (grpOf c) (opOf c) (modOf c) (argOf c) = c := by
  ext i hi
  simp only [cmdOf, grpOf, opOf, modOf, argOf, BitVec.getElem_eq_testBit_toNat]
  rw [← BitVec.getLsbD, BitVec.getLsbD_append, BitVec.getLsbD_append, BitVec.getLsbD_append, ← BitVec.getLsbD]
  simp only [BitVec.getLsbD_extractLsb']
  split
  · simp; omega
  · split
    · rw [show 12 + (i - 12) = i by omega]; simp; omega
    · split
      · rw [show 16 + (i - 12 - 4) = i by omega]; simp; omega
      · rw [show 20 + (i - 12 - 4 - 4) = i by omega]; simp; omega

theorem cmdOf_injective {g o m g' o' m' : BitVec 4} {a a' : BitVec 12} (h : cmdOf g o m a = cmdOf g' o' m' a') :
    g = g' ∧ o = o' ∧ m = m' ∧ a = a' :=
  ⟨by simpa using congrArg grpOf h, by simpa using congrArg opOf h, by simpa using congrArg modOf h,
    by simpa using congrArg argOf h⟩

@[simp] theorem decodeShiftType_shiftCode (t : ShiftType) : decodeShiftType (shiftCode t) = some t := by
  cases t <;> rfl

@[simp] theorem decodeContainer_containerCode (w : Container) : decodeContainer (containerCode w) = some w := by
  cases w <;> rfl

/-- The two 6-bit bounds of group BITS, `end` above `start` (R68). -/
theorem argument_start (start stop : Nat) (h : start < 64) :
    ((BitVec.ofNat 6 stop ++ BitVec.ofNat 6 start).extractLsb' 0 6 : BitVec 6).toNat = start := by
  rw [show ((BitVec.ofNat 6 stop ++ BitVec.ofNat 6 start).extractLsb' 0 6 : BitVec 6) = BitVec.ofNat 6 start by
    ext i hi
    simp only [BitVec.getElem_extractLsb', BitVec.getLsbD_append]
    simp [BitVec.getLsbD_eq_getElem hi, show ¬ 6 ≤ i by omega]]
  simp; omega

theorem argument_stop (start stop : Nat) (h : stop < 64) :
    ((BitVec.ofNat 6 stop ++ BitVec.ofNat 6 start).extractLsb' 6 6 : BitVec 6).toNat = stop := by
  rw [show ((BitVec.ofNat 6 stop ++ BitVec.ofNat 6 start).extractLsb' 6 6 : BitVec 6) = BitVec.ofNat 6 stop by
    ext i hi
    simp only [BitVec.getElem_extractLsb', BitVec.getLsbD_append]
    simp [BitVec.getLsbD_eq_getElem hi]]
  simp; omega

end Sys2Proof
end

