-- ==== Sys2Proof/Laws/State.lean ====
section
/-! SUPPORT. One lemma per field per update of the state, so that no proof unfolds a record update. -/

namespace Sys2Proof.Machine

@[simp] theorem respond_nzcv (o : OutPorts) (s : State) : (respond o s).nzcv = s.nzcv := rfl
@[simp] theorem respond_out (o : OutPorts) (s : State) : (respond o s).out = o := rfl
@[simp] theorem respond_inp (o : OutPorts) (s : State) : (respond o s).inp = s.inp := rfl
@[simp] theorem respond_pending (o : OutPorts) (s : State) : (respond o s).pending = s.pending := rfl
@[simp] theorem respond_params (o : OutPorts) (s : State) : (respond o s).params = s.params := rfl

@[simp] theorem raiseError_nzcv (e : ErrorKind) (s : State) : (raiseError e s).nzcv = s.nzcv := rfl
@[simp] theorem raiseError_out (e : ErrorKind) (s : State) : (raiseError e s).out = { err := some e } := rfl
@[simp] theorem raiseError_inp (e : ErrorKind) (s : State) : (raiseError e s).inp = s.inp := rfl
@[simp] theorem raiseError_pending (e : ErrorKind) (s : State) : (raiseError e s).pending = s.pending := rfl
@[simp] theorem raiseError_params (e : ErrorKind) (s : State) : (raiseError e s).params = s.params := rfl

@[simp] theorem respondResult_nzcv (r : Word) (s : State) : (respondResult r s).nzcv = s.nzcv := rfl
@[simp] theorem respondResult_out (r : Word) (s : State) : (respondResult r s).out = { result := some r } := rfl
@[simp] theorem respondResult_inp (r : Word) (s : State) : (respondResult r s).inp = s.inp := rfl
@[simp] theorem respondResult_pending (r : Word) (s : State) : (respondResult r s).pending = s.pending := rfl
@[simp] theorem respondResult_params (r : Word) (s : State) : (respondResult r s).params = s.params := rfl

@[simp] theorem respondResultFlags_nzcv (r : Word) (f : Nzcv) (s : State) :
    (respondResultFlags r f s).nzcv = s.nzcv := rfl
@[simp] theorem respondResultFlags_out (r : Word) (f : Nzcv) (s : State) :
    (respondResultFlags r f s).out = { result := some r, fout := some (packFlags f) } := rfl
@[simp] theorem respondResultFlags_inp (r : Word) (f : Nzcv) (s : State) :
    (respondResultFlags r f s).inp = s.inp := rfl
@[simp] theorem respondResultFlags_pending (r : Word) (f : Nzcv) (s : State) :
    (respondResultFlags r f s).pending = s.pending := rfl
@[simp] theorem respondResultFlags_params (r : Word) (f : Nzcv) (s : State) :
    (respondResultFlags r f s).params = s.params := rfl

@[simp] theorem respondPair_nzcv (p : BitVec 64) (s : State) : (respondPair p s).nzcv = s.nzcv := rfl
@[simp] theorem respondPair_out (p : BitVec 64) (s : State) :
    (respondPair p s).out = { result := some (lowHalf p), resulthi := some (highHalf p) } := rfl
@[simp] theorem respondPair_inp (p : BitVec 64) (s : State) : (respondPair p s).inp = s.inp := rfl
@[simp] theorem respondPair_pending (p : BitVec 64) (s : State) : (respondPair p s).pending = s.pending := rfl
@[simp] theorem respondPair_params (p : BitVec 64) (s : State) : (respondPair p s).params = s.params := rfl

@[simp] theorem respondPairFlags_nzcv (p : BitVec 64) (s : State) : (respondPairFlags p s).nzcv = s.nzcv := rfl
@[simp] theorem respondPairFlags_out (p : BitVec 64) (s : State) :
    (respondPairFlags p s).out =
      { result := some (lowHalf p), resulthi := some (highHalf p), fout := some (packFlags (flags64 (highHalf p) (lowHalf p) s.nzcv)) } := rfl
@[simp] theorem respondPairFlags_inp (p : BitVec 64) (s : State) : (respondPairFlags p s).inp = s.inp := rfl
@[simp] theorem respondPairFlags_pending (p : BitVec 64) (s : State) :
    (respondPairFlags p s).pending = s.pending := rfl
@[simp] theorem respondPairFlags_params (p : BitVec 64) (s : State) : (respondPairFlags p s).params = s.params := rfl

@[simp] theorem commitFlags_nzcv (f : Nzcv) (s : State) : (commitFlags f s).nzcv = f := rfl
@[simp] theorem commitFlags_out (f : Nzcv) (s : State) : (commitFlags f s).out = {} := rfl
@[simp] theorem commitFlags_inp (f : Nzcv) (s : State) : (commitFlags f s).inp = s.inp := rfl
@[simp] theorem commitFlags_pending (f : Nzcv) (s : State) : (commitFlags f s).pending = s.pending := rfl
@[simp] theorem commitFlags_params (f : Nzcv) (s : State) : (commitFlags f s).params = s.params := rfl

@[simp] theorem present_nzcv (p : InPorts) (rest : List Transaction) (s : State) :
    (present p rest s).nzcv = s.nzcv := rfl
@[simp] theorem present_out (p : InPorts) (rest : List Transaction) (s : State) :
    (present p rest s).out = s.out := rfl
@[simp] theorem present_inp (p : InPorts) (rest : List Transaction) (s : State) : (present p rest s).inp = p := rfl
@[simp] theorem present_pending (p : InPorts) (rest : List Transaction) (s : State) :
    (present p rest s).pending = rest := rfl
@[simp] theorem present_params (p : InPorts) (rest : List Transaction) (s : State) :
    (present p rest s).params = s.params := rfl

@[simp] theorem presentNext_nzcv (t : Transaction) (s : State) : (presentNext t s).nzcv = s.nzcv := rfl
@[simp] theorem presentNext_out (t : Transaction) (s : State) :
    (presentNext t s).out = { s.out with err := none } := rfl
@[simp] theorem presentNext_inp (t : Transaction) (s : State) : (presentNext t s).inp = s.inp := rfl
@[simp] theorem presentNext_pending (t : Transaction) (s : State) : (presentNext t s).pending = t :: s.pending := rfl
@[simp] theorem presentNext_params (t : Transaction) (s : State) : (presentNext t s).params = s.params := rfl

@[simp] theorem resetWith_nzcv (p : Params) : (State.resetWith p).nzcv = p.resetNzcv := rfl
@[simp] theorem resetWith_out (p : Params) : (State.resetWith p).out = {} := rfl
@[simp] theorem resetWith_inp (p : Params) : (State.resetWith p).inp = {} := rfl
@[simp] theorem resetWith_pending (p : Params) : (State.resetWith p).pending = [] := rfl
@[simp] theorem resetWith_params (p : Params) : (State.resetWith p).params = p := rfl

/-- A later answer replaces an earlier one whole. -/
@[simp] theorem respond_respond (o o' : OutPorts) (s : State) : respond o (respond o' s) = respond o s := rfl

theorem raiseError_eq_respond (e : ErrorKind) (s : State) : raiseError e s = respond { err := some e } s := rfl

end Sys2Proof.Machine
end

