-- ==== Sys2Proof/Laws/Operations.lean ====
section
/-! SUPPORT. What each shared operation can do, said once: checks, operand forms, sampling. -/

namespace Sys2Proof.Machine

/-! ## Checks -/

theorem checkAmount_of_lt {amt : Nat} (h : amt < 32) : checkAmount amt = none := by
  simp [checkAmount, Nat.not_le.mpr h]

theorem checkAmount_of_ge {amt : Nat} (h : 32 ≤ amt) : checkAmount amt = some .shiftAmountOutOfRange := by
  simp [checkAmount, h]

theorem checkBounds_of_legal {w start stop : Nat} (h : start ≤ stop) (h' : stop ≤ w) :
    checkBounds w start stop = none := by
  simp [checkBounds, Nat.not_lt.mpr h, Nat.not_lt.mpr h']

theorem checkBounds_eq_some {w start stop : Nat} {e : ErrorKind} (h : checkBounds w start stop = some e) :
    e = .bitRange ∧ (start > stop ∨ stop > w) := by
  unfold checkBounds at h
  split at h <;> simp_all

/-! ## Operand forms -/

theorem withLiteral_of_lt {type : ShiftType} {amt : Nat} {s : State} {k : Shifted → State → State} (h : amt < 32) :
    withLiteral type amt s k = .next (k (literalOperand type amt s) s) := by
  simp [withLiteral, checkAmount_of_lt h]

theorem withLiteral_of_ge {type : ShiftType} {amt : Nat} {s : State} {k : Shifted → State → State} (h : 32 ≤ amt) :
    withLiteral type amt s k = .next (raiseError .shiftAmountOutOfRange s) := by
  simp [withLiteral, checkAmount_of_ge h]

theorem withRegister_eq (type : ShiftType) (s : State) (k : Shifted → State → State) :
    withRegister type s k = .next (k (registerOperand type s) s) := rfl

theorem withImmediate_eq (s : State) (k : Shifted → State → State) :
    withImmediate s k = .next (k (immediateOperand s) s) := rfl

theorem answerBitwise_eq (r : Word) (o : Shifted) (s : State) :
    answerBitwise r o s = respond { result := some r, fout := some (packFlags (bitwiseFlags r o.carry s.nzcv)) } s :=
  rfl

theorem answerArithmetic_eq (a : Sum) (s : State) :
    answerArithmetic a s =
      respond { result := some a.result,
                fout := some (packFlags (arithmeticFlags a.result a.carry a.overflow)) } s := rfl

/-- A bit-field command answers its value or its error, and touches nothing but the outputs. -/
theorem answerField_cases (r : Except ErrorKind Nat) (s : State) :
    (∃ n, r = .ok n ∧ answerField r s = respondResult (BitVec.ofNat 32 n) s) ∨
    (∃ e, r = .error e ∧ answerField r s = raiseError e s) := by
  cases r with
  | ok n => exact .inl ⟨n, rfl, rfl⟩
  | error e => exact .inr ⟨e, rfl, rfl⟩

/-! ## Outputs -/

@[simp] theorem rvalid_mk (r h : Option Word) (f : Option FlagBits) (e : Option ErrorKind) :
    OutPorts.rvalid ⟨r, h, f, e⟩ = r.isSome := rfl
@[simp] theorem hvalid_mk (r h : Option Word) (f : Option FlagBits) (e : Option ErrorKind) :
    OutPorts.hvalid ⟨r, h, f, e⟩ = h.isSome := rfl
@[simp] theorem fvalid_mk (r h : Option Word) (f : Option FlagBits) (e : Option ErrorKind) :
    OutPorts.fvalid ⟨r, h, f, e⟩ = f.isSome := rfl

@[simp] theorem nzcvPort_respond (o : OutPorts) (s : State) : nzcvPort (respond o s) = nzcvPort s := rfl

/-! ## Sampling -/

@[simp] theorem WordDrive.sample_value (v : Word) (s : State) : WordDrive.sample (.value v) s = some v := rfl
@[simp] theorem WordDrive.sample_result (s : State) : WordDrive.sample .result s = s.out.result := rfl
@[simp] theorem WordDrive.sample_resulthi (s : State) : WordDrive.sample .resulthi s = s.out.resulthi := rfl
@[simp] theorem FlagDrive.sample_value (v : FlagBits) (s : State) : FlagDrive.sample (.value v) s = some v := rfl
@[simp] theorem FlagDrive.sample_fout (s : State) : FlagDrive.sample .fout s = s.out.fout := rfl
@[simp] theorem FlagDrive.sample_nzcv (s : State) : FlagDrive.sample .nzcv s = some (nzcvPort s) := rfl

@[simp] theorem takePort_some {n : Nat} (read : Bool) (v : BitVec n) : takePort read (some v) = some v := by
  cases read <;> rfl
@[simp] theorem takePort_unread {n : Nat} (v : Option (BitVec n)) : takePort false v = some (v.getD 0) := rfl
@[simp] theorem takePort_read {n : Nat} (v : Option (BitVec n)) : takePort true v = v := rfl

/-- A port is missing exactly when it is read and carries nothing. -/
theorem takePort_eq_none {n : Nat} {read : Bool} {v : Option (BitVec n)} :
    takePort read v = none ↔ read = true ∧ v = none := by
  cases read <;> simp

theorem portsRead_of_error {c : Cmd} {e : DecodeError} (h : decode c = .error e) : portsRead c = {} := by
  simp [portsRead, h]

theorem portsRead_of_argumentError {c : Cmd} {i : Instr} {e : ErrorKind} (h : decode c = .ok i)
    (he : argumentError i = some e) : portsRead c = {} := by
  simp [portsRead, h, he]

theorem portsRead_of_ok {c : Cmd} {i : Instr} (h : decode c = .ok i) (he : argumentError i = none) :
    portsRead c = portUse i := by
  simp [portsRead, h, he]

/-- Taking the ports over fails exactly when some port that is read carries nothing. -/
theorem takePorts_eq_none {u : PortUse} {t : Transaction} {s : State} :
    takePorts u t s = none ↔
      (u.rn = true ∧ t.rn.sample s = none) ∨ (u.rm = true ∧ t.rm.sample s = none) ∨
      (u.rs = true ∧ t.rs.sample s = none) ∨ (u.ra = true ∧ t.ra.sample s = none) ∨
      (u.rdhi = true ∧ t.rdhi.sample s = none) ∨ (u.rdlo = true ∧ t.rdlo.sample s = none) ∨
      (u.fin = true ∧ t.fin.sample s = none) := by
  simp only [← takePort_eq_none]
  unfold takePorts
  cases takePort u.rn (t.rn.sample s) with
  | none => simp
  | some => cases takePort u.rm (t.rm.sample s) with
    | none => simp
    | some => cases takePort u.rs (t.rs.sample s) with
      | none => simp
      | some => cases takePort u.ra (t.ra.sample s) with
        | none => simp
        | some => cases takePort u.rdhi (t.rdhi.sample s) with
          | none => simp
          | some => cases takePort u.rdlo (t.rdlo.sample s) with
            | none => simp
            | some => cases takePort u.fin (t.fin.sample s) <;> simp

/-- Where the ports can be taken over, each field is what its port was taken over as. -/
theorem takePorts_eq_some {u : PortUse} {t : Transaction} {s : State} {p : InPorts} (h : takePorts u t s = some p) :
    p.cmd = t.cmd ∧ p.imm12 = t.imm12 ∧ takePort u.rn (t.rn.sample s) = some p.rn ∧
    takePort u.rm (t.rm.sample s) = some p.rm ∧ takePort u.rs (t.rs.sample s) = some p.rs ∧
    takePort u.ra (t.ra.sample s) = some p.ra ∧ takePort u.rdhi (t.rdhi.sample s) = some p.rdhi ∧
    takePort u.rdlo (t.rdlo.sample s) = some p.rdlo ∧ takePort u.fin (t.fin.sample s) = some p.fin := by
  unfold takePorts at h
  split at h
  · rename_i h1 h2 h3 h4 h5 h6 h7
    cases h
    exact ⟨rfl, rfl, h1, h2, h3, h4, h5, h6, h7⟩
  · cases h

/-- Sampling a transaction carries its command word and its immediate through unchanged. -/
theorem Transaction.sample_cmd {t : Transaction} {s : State} {p : InPorts} (h : t.sample s = some p) :
    p.cmd = t.cmd ∧ p.imm12 = t.imm12 := by
  obtain ⟨h1, h2, _⟩ := takePorts_eq_some h
  exact ⟨h1, h2⟩

/-- A transaction that ends in an error before anything is computed reads no port, so it can always be sampled. -/
theorem Transaction.sample_of_unread {t : Transaction} {s : State} (h : portsRead t.cmd = {}) :
    ∃ p, t.sample s = some p := by
  cases hp : t.sample s with
  | some p => exact ⟨p, rfl⟩
  | none =>
    have := takePorts_eq_none.mp hp
    simp [h] at this

@[simp] theorem haltingError_undefinedFault {s : State} (h : s.params.errorDisposition = .undefinedFault) :
    haltingError s = none := by
  simp [haltingError, h]

theorem haltingError_of_no_error {s : State} (h : s.out.err = none) : haltingError s = none := by
  unfold haltingError
  split <;> simp_all

end Sys2Proof.Machine
end

