-- ==== Sys2Proof/Laws/Exec.lean ====
section
/-! SUPPORT. What a command, and a step, can do, said once: every later proof cites these inversions instead of
unfolding `exec` or `step`. -/

namespace Sys2Proof.Machine

theorem withLiteral_respond {type : ShiftType} {amt : Nat} {s : State} {k : Shifted → State → State}
    (hk : ∀ op2, ∃ o, k op2 s = respond o s) : ∃ o, withLiteral type amt s k = .next (respond o s) := by
  unfold withLiteral
  split
  · exact ⟨_, rfl⟩
  · obtain ⟨o, ho⟩ := hk (literalOperand type amt s)
    exact ⟨o, congrArg _ ho⟩

theorem answerField_respond (r : Except ErrorKind Nat) (s : State) : ∃ o, answerField r s = respond o s := by
  cases r <;> exact ⟨_, rfl⟩

/-- Every command but COMMIT answers on the output ports and changes nothing else. -/
theorem exec_respond (i : Instr) (s : State) (h : i ≠ .commit) : ∃ o, exec i s = .next (respond o s) := by
  cases i with
  | commit => exact absurd rfl h
  | and | eor | sub | rsb | add | adc | sbc | rsc | orr | mov | bic | mvn =>
    exact withLiteral_respond fun _ => ⟨_, rfl⟩
  | extractBits w start stop =>
    obtain ⟨o, ho⟩ := answerField_respond (extractFrom w start stop s) s
    exact ⟨o, congrArg _ ho⟩
  | writeBits w start stop =>
    obtain ⟨o, ho⟩ := answerField_respond (writeTo w start stop s) s
    exact ⟨o, congrArg _ ho⟩
  | mls =>
    simp only [exec, execMls]
    split
    · exact ⟨_, rfl⟩
    · exact ⟨_, rfl⟩
  | _ => exact ⟨_, rfl⟩

@[simp] theorem exec_commit (s : State) : exec .commit s = .next (commitFlags (unpackFlags s.inp.fin) s) := rfl

/-- A transaction on sampled ports runs its command, or raises the Reserved-Command error. -/
theorem runSampled_ok {s : State} {i : Instr} (h : decode s.inp.cmd = .ok i) : runSampled s = exec i s := by
  simp [runSampled, h]

theorem runSampled_error {s : State} {e : DecodeError} (h : decode s.inp.cmd = .error e) :
    runSampled s = .next (raiseError .reservedCommand s) := by
  simp [runSampled, h]

/-- The only word that decodes to COMMIT is 0x500000, and it does. -/
theorem decode_commit : decode 0x500000#24 = .ok .commit := by decide

theorem step_of_sample {s : State} {t : Transaction} {rest : List Transaction} {p : InPorts}
    (hh : haltingError s = none) (hp : s.pending = t :: rest) (ht : t.sample s = some p) :
    step s = runSampled (present p rest s) := by
  simp [step, runNext, hh, hp, ht]

/-- If a step answers a next state, the caller has presented a transaction, its ports were sampled, and the answer is
that of the transaction. -/
theorem step_cases {s s' : State} (h : step s = .next s') :
    ∃ t rest p, haltingError s = none ∧ s.pending = t :: rest ∧ t.sample s = some p ∧
      runSampled (present p rest s) = .next s' := by
  unfold step at h
  split at h
  · cases h
  · rename_i hh
    unfold runNext at h
    split at h
    · cases h
    · rename_i t rest hp
      split at h
      · cases h
      · rename_i p ht
        exact ⟨t, rest, p, hh, hp, ht, h⟩

end Sys2Proof.Machine
end

