-- ==== Sys2Proof/Laws/PerInstr.lean ====
section
/-! SUPPORT. The family of statements made per instruction: the group and operation fields of every command's word
are the codes of spec/30_encoding.md R61, R74, R75 and R68. -/

namespace Sys2Proof.Laws

/-- The codes of R61, R74, R75 and R68, written a second time, from the rules' tables and not from the encoder. -/
def codesOf : Instr → Nat × Nat
  | .and _ _ => (0, 0)
  | .eor _ _ => (0, 1)
  | .sub _ _ => (0, 2)
  | .rsb _ _ => (0, 3)
  | .add _ _ => (0, 4)
  | .adc _ _ => (0, 5)
  | .sbc _ _ => (0, 6)
  | .rsc _ _ => (0, 7)
  | .orr _ _ => (0, 12)
  | .mov _ _ => (0, 13)
  | .bic _ _ => (0, 14)
  | .mvn _ _ => (0, 15)
  | .andRs _ => (1, 0)
  | .eorRs _ => (1, 1)
  | .subRs _ => (1, 2)
  | .rsbRs _ => (1, 3)
  | .addRs _ => (1, 4)
  | .adcRs _ => (1, 5)
  | .sbcRs _ => (1, 6)
  | .rscRs _ => (1, 7)
  | .orrRs _ => (1, 12)
  | .movRs _ => (1, 13)
  | .bicRs _ => (1, 14)
  | .mvnRs _ => (1, 15)
  | .iAnd => (2, 0)
  | .iEor => (2, 1)
  | .iSub => (2, 2)
  | .iRsb => (2, 3)
  | .iAdd => (2, 4)
  | .iAdc => (2, 5)
  | .iSbc => (2, 6)
  | .iRsc => (2, 7)
  | .iOrr => (2, 12)
  | .iMov => (2, 13)
  | .iBic => (2, 14)
  | .iMvn => (2, 15)
  | .adrAdd => (3, 4)
  | .adrSub => (3, 2)
  | .mul => (4, 0)
  | .mla => (4, 1)
  | .umaal => (4, 2)
  | .mls => (4, 3)
  | .umull => (4, 4)
  | .umlal => (4, 5)
  | .smull => (4, 6)
  | .smlal => (4, 7)
  | .commit => (5, 0)
  | .extractBits _ _ _ => (6, 0)
  | .writeBits _ _ _ => (6, 1)
  | .countBits => (6, 2)

/-- The word of `i` carries the codes of `i` in `cmd[23:20]` and `cmd[19:16]` (R60). -/
def EncodedFields.Statement (i : Instr) : Prop :=
  ((grpOf (encode i)).toNat, (opOf (encode i)).toNat) = codesOf i

/-- The fields of a word of each format. -/
theorem fields_encodeDpr (op : BitVec 4) (type : ShiftType) (amt : Nat) :
    ((grpOf (encodeDpr op type amt)).toNat, (opOf (encodeDpr op type amt)).toNat) = (0, op.toNat) := by
  simp [encodeDpr]

theorem fields_encodeDprs (op : BitVec 4) (type : ShiftType) :
    ((grpOf (encodeDprs op type)).toNat, (opOf (encodeDprs op type)).toNat) = (1, op.toNat) := by
  simp [encodeDprs]

theorem fields_encodeFixed (grp op : BitVec 4) :
    ((grpOf (encodeFixed grp op)).toNat, (opOf (encodeFixed grp op)).toNat) = (grp.toNat, op.toNat) := by
  simp [encodeFixed]

theorem fields_encodeBits (op : BitVec 4) (w : Container) (start stop : Nat) :
    ((grpOf (encodeBits op w start stop)).toNat, (opOf (encodeBits op w start stop)).toNat) = (6, op.toNat) := by
  simp [encodeBits]

theorem EncodedFields.and (type : ShiftType) (amt : Nat) : EncodedFields.Statement (.and type amt) :=
  fields_encodeDpr 0x0 type amt
theorem EncodedFields.eor (type : ShiftType) (amt : Nat) : EncodedFields.Statement (.eor type amt) :=
  fields_encodeDpr 0x1 type amt
theorem EncodedFields.sub (type : ShiftType) (amt : Nat) : EncodedFields.Statement (.sub type amt) :=
  fields_encodeDpr 0x2 type amt
theorem EncodedFields.rsb (type : ShiftType) (amt : Nat) : EncodedFields.Statement (.rsb type amt) :=
  fields_encodeDpr 0x3 type amt
theorem EncodedFields.add (type : ShiftType) (amt : Nat) : EncodedFields.Statement (.add type amt) :=
  fields_encodeDpr 0x4 type amt
theorem EncodedFields.adc (type : ShiftType) (amt : Nat) : EncodedFields.Statement (.adc type amt) :=
  fields_encodeDpr 0x5 type amt
theorem EncodedFields.sbc (type : ShiftType) (amt : Nat) : EncodedFields.Statement (.sbc type amt) :=
  fields_encodeDpr 0x6 type amt
theorem EncodedFields.rsc (type : ShiftType) (amt : Nat) : EncodedFields.Statement (.rsc type amt) :=
  fields_encodeDpr 0x7 type amt
theorem EncodedFields.orr (type : ShiftType) (amt : Nat) : EncodedFields.Statement (.orr type amt) :=
  fields_encodeDpr 0xc type amt
theorem EncodedFields.mov (type : ShiftType) (amt : Nat) : EncodedFields.Statement (.mov type amt) :=
  fields_encodeDpr 0xd type amt
theorem EncodedFields.bic (type : ShiftType) (amt : Nat) : EncodedFields.Statement (.bic type amt) :=
  fields_encodeDpr 0xe type amt
theorem EncodedFields.mvn (type : ShiftType) (amt : Nat) : EncodedFields.Statement (.mvn type amt) :=
  fields_encodeDpr 0xf type amt
theorem EncodedFields.andRs (type : ShiftType) : EncodedFields.Statement (.andRs type) :=
  fields_encodeDprs 0x0 type
theorem EncodedFields.eorRs (type : ShiftType) : EncodedFields.Statement (.eorRs type) :=
  fields_encodeDprs 0x1 type
theorem EncodedFields.subRs (type : ShiftType) : EncodedFields.Statement (.subRs type) :=
  fields_encodeDprs 0x2 type
theorem EncodedFields.rsbRs (type : ShiftType) : EncodedFields.Statement (.rsbRs type) :=
  fields_encodeDprs 0x3 type
theorem EncodedFields.addRs (type : ShiftType) : EncodedFields.Statement (.addRs type) :=
  fields_encodeDprs 0x4 type
theorem EncodedFields.adcRs (type : ShiftType) : EncodedFields.Statement (.adcRs type) :=
  fields_encodeDprs 0x5 type
theorem EncodedFields.sbcRs (type : ShiftType) : EncodedFields.Statement (.sbcRs type) :=
  fields_encodeDprs 0x6 type
theorem EncodedFields.rscRs (type : ShiftType) : EncodedFields.Statement (.rscRs type) :=
  fields_encodeDprs 0x7 type
theorem EncodedFields.orrRs (type : ShiftType) : EncodedFields.Statement (.orrRs type) :=
  fields_encodeDprs 0xc type
theorem EncodedFields.movRs (type : ShiftType) : EncodedFields.Statement (.movRs type) :=
  fields_encodeDprs 0xd type
theorem EncodedFields.bicRs (type : ShiftType) : EncodedFields.Statement (.bicRs type) :=
  fields_encodeDprs 0xe type
theorem EncodedFields.mvnRs (type : ShiftType) : EncodedFields.Statement (.mvnRs type) :=
  fields_encodeDprs 0xf type
theorem EncodedFields.iAnd : EncodedFields.Statement .iAnd :=
  fields_encodeFixed 2 0x0
theorem EncodedFields.iEor : EncodedFields.Statement .iEor :=
  fields_encodeFixed 2 0x1
theorem EncodedFields.iSub : EncodedFields.Statement .iSub :=
  fields_encodeFixed 2 0x2
theorem EncodedFields.iRsb : EncodedFields.Statement .iRsb :=
  fields_encodeFixed 2 0x3
theorem EncodedFields.iAdd : EncodedFields.Statement .iAdd :=
  fields_encodeFixed 2 0x4
theorem EncodedFields.iAdc : EncodedFields.Statement .iAdc :=
  fields_encodeFixed 2 0x5
theorem EncodedFields.iSbc : EncodedFields.Statement .iSbc :=
  fields_encodeFixed 2 0x6
theorem EncodedFields.iRsc : EncodedFields.Statement .iRsc :=
  fields_encodeFixed 2 0x7
theorem EncodedFields.iOrr : EncodedFields.Statement .iOrr :=
  fields_encodeFixed 2 0xc
theorem EncodedFields.iMov : EncodedFields.Statement .iMov :=
  fields_encodeFixed 2 0xd
theorem EncodedFields.iBic : EncodedFields.Statement .iBic :=
  fields_encodeFixed 2 0xe
theorem EncodedFields.iMvn : EncodedFields.Statement .iMvn :=
  fields_encodeFixed 2 0xf
theorem EncodedFields.adrAdd : EncodedFields.Statement .adrAdd :=
  fields_encodeFixed 3 0x4
theorem EncodedFields.adrSub : EncodedFields.Statement .adrSub :=
  fields_encodeFixed 3 0x2
theorem EncodedFields.mul : EncodedFields.Statement .mul :=
  fields_encodeFixed 4 0x0
theorem EncodedFields.mla : EncodedFields.Statement .mla :=
  fields_encodeFixed 4 0x1
theorem EncodedFields.umaal : EncodedFields.Statement .umaal :=
  fields_encodeFixed 4 0x2
theorem EncodedFields.mls : EncodedFields.Statement .mls :=
  fields_encodeFixed 4 0x3
theorem EncodedFields.umull : EncodedFields.Statement .umull :=
  fields_encodeFixed 4 0x4
theorem EncodedFields.umlal : EncodedFields.Statement .umlal :=
  fields_encodeFixed 4 0x5
theorem EncodedFields.smull : EncodedFields.Statement .smull :=
  fields_encodeFixed 4 0x6
theorem EncodedFields.smlal : EncodedFields.Statement .smlal :=
  fields_encodeFixed 4 0x7
theorem EncodedFields.commit : EncodedFields.Statement .commit :=
  fields_encodeFixed 5 0x0
theorem EncodedFields.extractBits (w : Container) (start stop : Nat) :
    EncodedFields.Statement (.extractBits w start stop) :=
  fields_encodeBits 0 w start stop
theorem EncodedFields.writeBits (w : Container) (start stop : Nat) :
    EncodedFields.Statement (.writeBits w start stop) :=
  fields_encodeBits 1 w start stop
theorem EncodedFields.countBits : EncodedFields.Statement .countBits :=
  fields_encodeFixed 6 0x2

end Sys2Proof.Laws
end

