-- ==== Sys2Proof/Laws/Runs.lean ====
section
/-! SUPPORT. Runs of `core`, said once over `State` and `step`, so that an induction over a run never meets the fields
of `core`. -/

namespace Sys2Proof.Machine

/-- No step is the state itself. -/
theorem run_zero {s s' : State} (h : Sys2Proof.core.run 0 s = .next s') : s' = s := by
  cases h
  rfl

/-- A run of `k + 1` steps is a step and a run of `k` steps. -/
theorem run_succ_cases {k : Nat} {s s' : State} (h : Sys2Proof.core.run (k + 1) s = .next s') :
    ∃ t : State, step s = .next t ∧ Sys2Proof.core.run k t = .next s' := by
  simp only [Host.Core.run] at h
  split at h
  · rename_i t ht
    exact ⟨t, ht, h⟩
  · cases h
  · cases h

/-- The states a run passes through, one step at a time. -/
theorem trace_succ {s t : State} (k : Nat) (h : step s = .next t) : trace (k + 1) s = t :: trace k t := by
  simp [trace, h]

end Sys2Proof.Machine
end

