-- ==== Sys2Proof/Tests/Slice0.lean ====
section
/-! SUPPORT. The model's own tests: ill-formed terms refused, words written bit by bit from the formats of
spec/30_encoding.md decoded, one step of every command against a worked example or a vector of the spec, and for
every obligation with hypotheses a concrete state and operands that meet them. -/

open Sys2Proof Sys2Proof.Machine Sys2Proof.Claims

namespace Sys2Proof.Tests

/-! ## Helpers -/

/-- A transaction whose ports all carry values of the caller's own. -/
def txn (c : Cmd) (p : InPorts) : Transaction :=
  { cmd := c, rn := .value p.rn, rm := .value p.rm, rs := .value p.rs, ra := .value p.ra, rdhi := .value p.rdhi,
    rdlo := .value p.rdlo, imm12 := p.imm12, fin := .value p.fin }

/-- A block with stored flags `f` whose caller has the transactions `ts` to present. -/
def block (f : FlagBits) (ts : List Transaction) : State :=
  { State.reset with nzcv := unpackFlags f, pending := ts }

/-- The next state an answer gives, if it gives one. -/
def nextOf : Answer → Option State
  | .next s => some s
  | .fault _ => none
  | .refused _ => none

/-- The state after `n` steps; the state itself where a step stops. -/
def after : Nat → State → State
  | 0, s => s
  | n + 1, s => after n ((nextOf (step s)).getD s)

/-- One step on the word `c` and ports `p` with stored flags `f`: the outputs, and the stored flags after it. -/
def ran (c : Cmd) (f : FlagBits) (p : InPorts) : Option (OutPorts × FlagBits) :=
  (nextOf (step (block f [txn c p]))).map fun t => (t.out, nzcvPort t)

/-- `ran` under other parameters. -/
def ranWith (q : Params) (c : Cmd) (f : FlagBits) (p : InPorts) : Option (OutPorts × FlagBits) :=
  (nextOf (step { block f [txn c p] with params := q })).map fun t => (t.out, nzcvPort t)

/-- Outputs of a completed command. -/
def done (r h : Option Word) (fo : Option FlagBits) (stored : FlagBits) : Option (OutPorts × FlagBits) :=
  some (⟨r, h, fo, none⟩, stored)

/-- Outputs of a failing command. -/
def failed (e : ErrorKind) (stored : FlagBits) : Option (OutPorts × FlagBits) :=
  some (⟨none, none, none, some e⟩, stored)

/-! ## Ill-formed commands are refused -/

theorem test_amount_above_field_is_ill_formed :
    (Instr.mov .logicalLeft 256).wellFormed = false ∧ (Instr.mov .logicalLeft 255).wellFormed = true := by decide

theorem test_start_above_field_is_ill_formed :
    (Instr.extractBits .word 64 0).wellFormed = false ∧ (Instr.extractBits .word 63 0).wellFormed = true := by decide

theorem test_end_above_field_is_ill_formed :
    (Instr.writeBits .imm12 0 64).wellFormed = false ∧ (Instr.writeBits .imm12 0 63).wellFormed = true := by decide

/-! ## Every constructor decoded from its bits (R62 to R69, R74, R75) -/

/-- Format `0000 oooo 00tt 0000 aaaa aaaa` (R62). -/
theorem test_decode_dpr :
    decode 0b0000_0000_0000_0000_0000_0000#24 = .ok (.and .logicalLeft 0) ∧
    decode 0b0000_0001_0001_0000_0000_0001#24 = .ok (.eor .logicalRight 1) ∧
    decode 0b0000_0010_0010_0000_0001_1111#24 = .ok (.sub .arithmeticRight 31) ∧
    decode 0b0000_0011_0011_0000_0010_0000#24 = .ok (.rsb .rotateRight 32) ∧
    decode 0b0000_0100_0000_0000_1111_1111#24 = .ok (.add .logicalLeft 255) ∧
    decode 0b0000_0101_0001_0000_1000_0000#24 = .ok (.adc .logicalRight 128) ∧
    decode 0b0000_0110_0010_0000_0101_0101#24 = .ok (.sbc .arithmeticRight 85) ∧
    decode 0b0000_0111_0011_0000_1010_1010#24 = .ok (.rsc .rotateRight 170) ∧
    decode 0b0000_1100_0000_0000_0000_1111#24 = .ok (.orr .logicalLeft 15) ∧
    decode 0b0000_1101_0001_0000_1111_0000#24 = .ok (.mov .logicalRight 240) ∧
    decode 0b0000_1110_0010_0000_0000_0010#24 = .ok (.bic .arithmeticRight 2) ∧
    decode 0b0000_1111_0011_0000_1111_1110#24 = .ok (.mvn .rotateRight 254) := by decide

/-- Format `0001 oooo 00tt 0000 0000 0000` (R63). -/
theorem test_decode_dprs :
    decode 0b0001_0000_0001_0000_0000_0000#24 = .ok (.andRs .logicalRight) ∧
    decode 0b0001_0001_0010_0000_0000_0000#24 = .ok (.eorRs .arithmeticRight) ∧
    decode 0b0001_0010_0011_0000_0000_0000#24 = .ok (.subRs .rotateRight) ∧
    decode 0b0001_0011_0000_0000_0000_0000#24 = .ok (.rsbRs .logicalLeft) ∧
    decode 0b0001_0100_0001_0000_0000_0000#24 = .ok (.addRs .logicalRight) ∧
    decode 0b0001_0101_0010_0000_0000_0000#24 = .ok (.adcRs .arithmeticRight) ∧
    decode 0b0001_0110_0011_0000_0000_0000#24 = .ok (.sbcRs .rotateRight) ∧
    decode 0b0001_0111_0000_0000_0000_0000#24 = .ok (.rscRs .logicalLeft) ∧
    decode 0b0001_1100_0001_0000_0000_0000#24 = .ok (.orrRs .logicalRight) ∧
    decode 0b0001_1101_0010_0000_0000_0000#24 = .ok (.movRs .arithmeticRight) ∧
    decode 0b0001_1110_0011_0000_0000_0000#24 = .ok (.bicRs .rotateRight) ∧
    decode 0b0001_1111_0000_0000_0000_0000#24 = .ok (.mvnRs .logicalLeft) := by decide

/-- Format `0010 oooo 0000 0000 0000 0000` (R64). -/
theorem test_decode_dpi :
    decode 0b0010_0000_0000_0000_0000_0000#24 = .ok .iAnd ∧
    decode 0b0010_0001_0000_0000_0000_0000#24 = .ok .iEor ∧
    decode 0b0010_0010_0000_0000_0000_0000#24 = .ok .iSub ∧
    decode 0b0010_0011_0000_0000_0000_0000#24 = .ok .iRsb ∧
    decode 0b0010_0100_0000_0000_0000_0000#24 = .ok .iAdd ∧
    decode 0b0010_0101_0000_0000_0000_0000#24 = .ok .iAdc ∧
    decode 0b0010_0110_0000_0000_0000_0000#24 = .ok .iSbc ∧
    decode 0b0010_0111_0000_0000_0000_0000#24 = .ok .iRsc ∧
    decode 0b0010_1100_0000_0000_0000_0000#24 = .ok .iOrr ∧
    decode 0b0010_1101_0000_0000_0000_0000#24 = .ok .iMov ∧
    decode 0b0010_1110_0000_0000_0000_0000#24 = .ok .iBic ∧
    decode 0b0010_1111_0000_0000_0000_0000#24 = .ok .iMvn := by decide

/-- Format `0011 oooo 0000 0000 0000 0000` (R65). -/
theorem test_decode_adr :
    decode 0b0011_0100_0000_0000_0000_0000#24 = .ok .adrAdd ∧
    decode 0b0011_0010_0000_0000_0000_0000#24 = .ok .adrSub := by decide

/-- Format `0100 oooo 0000 0000 0000 0000` (R66, R75). -/
theorem test_decode_mul :
    decode 0b0100_0000_0000_0000_0000_0000#24 = .ok .mul ∧
    decode 0b0100_0001_0000_0000_0000_0000#24 = .ok .mla ∧
    decode 0b0100_0010_0000_0000_0000_0000#24 = .ok .umaal ∧
    decode 0b0100_0011_0000_0000_0000_0000#24 = .ok .mls ∧
    decode 0b0100_0100_0000_0000_0000_0000#24 = .ok .umull ∧
    decode 0b0100_0101_0000_0000_0000_0000#24 = .ok .umlal ∧
    decode 0b0100_0110_0000_0000_0000_0000#24 = .ok .smull ∧
    decode 0b0100_0111_0000_0000_0000_0000#24 = .ok .smlal := by decide

/-- Format `0101 0000 0000 0000 0000 0000` (R67). -/
theorem test_decode_flag :
    decode 0b0101_0000_0000_0000_0000_0000#24 = .ok .commit := by decide

/-- Format `0110 00oo 000w eeee eess ssss` (R68). -/
theorem test_decode_bits :
    decode 0b0110_0000_0000_1000_0000_1000#24 = .ok (.extractBits .word 8 32) ∧
    decode 0b0110_0000_0001_0011_0000_1000#24 = .ok (.extractBits .imm12 8 12) ∧
    decode 0b0110_0001_0000_1111_1110_0001#24 = .ok (.writeBits .word 33 63) ∧
    decode 0b0110_0001_0001_0000_0111_1111#24 = .ok (.writeBits .imm12 63 1) ∧
    decode 0b0110_0010_0000_0000_0000_0000#24 = .ok .countBits := by decide

/-- One word for each line of R78's list. -/
theorem test_reserved_words_are_rejected :
    decode 0x700000#24 = .error .reservedGroup ∧ decode 0xF00000#24 = .error .reservedGroup ∧
    decode 0x080000#24 = .error .reservedOp ∧ decode 0x1B0000#24 = .error .reservedOp ∧
    decode 0x290000#24 = .error .reservedOp ∧ decode 0x330000#24 = .error .reservedOp ∧
    decode 0x480000#24 = .error .reservedOp ∧ decode 0x510000#24 = .error .reservedOp ∧
    decode 0x630000#24 = .error .reservedOp ∧ decode 0x0D4000#24 = .error .reservedBits ∧
    decode 0x0D0100#24 = .error .reservedBits ∧ decode 0x1D0001#24 = .error .reservedBits ∧
    decode 0x2D1000#24 = .error .reservedBits ∧ decode 0x500001#24 = .error .reservedBits ∧
    decode 0x602000#24 = .error .reservedBits ∧ decode 0x621000#24 = .error .reservedBits ∧
    decode 0x620001#24 = .error .reservedBits := by decide

/-! ## One step of every command, on the spec's own numbers -/

-- 95_test_vectors.md, AND
theorem test_and : ran 0x000004 0b0011 { rn := 0xF0F0F0F0, rm := 0xFF00FF1 } =
    done (some 0xF000F010) none (some 0b1001) 0b0011 := by decide

-- 95_test_vectors.md, EOR
theorem test_eor : ran 0x010004 0b0011 { rn := 0xF0F0F0F0, rm := 0xFF00FF1 } =
    done (some 0xFF00FE0) none (some 0b0001) 0b0011 := by decide

-- 95_test_vectors.md, SUB
theorem test_sub : ran 0x020004 0b0011 { rn := 0xF0F0F0F0, rm := 0xFF00FF1 } =
    done (some 0xF1EFF1E0) none (some 0b1000) 0b0011 := by decide

-- 95_test_vectors.md, RSB
theorem test_rsb : ran 0x033000 0b0010 { rn := 0xF0F0F0F0, rm := 0xFF00FF1 } =
    done (some 0x97071708) none (some 0b1000) 0b0010 := by decide

-- 95_test_vectors.md, ADD
theorem test_add : ran 0x040004 0b0011 { rn := 0xF0F0F0F0, rm := 0xFF00FF1 } =
    done (some 0xEFF1F000) none (some 0b1010) 0b0011 := by decide

-- 42_dp_register.md, ADC
theorem test_adc : ran 0x053000 0b0010 { rn := 0x0, rm := 0x2 } =
    done (some 0x80000002) none (some 0b1000) 0b0010 := by decide

-- 95_test_vectors.md, SBC
theorem test_sbc : ran 0x060004 0b0011 { rn := 0xF0F0F0F0, rm := 0xFF00FF1 } =
    done (some 0xF1EFF1E0) none (some 0b1000) 0b0011 := by decide

-- 95_test_vectors.md, RSC
theorem test_rsc : ran 0x073000 0b0010 { rn := 0xF0F0F0F0, rm := 0xFF00FF1 } =
    done (some 0x97071708) none (some 0b1000) 0b0010 := by decide

-- 42_dp_register.md, ORR
theorem test_orr : ran 0x0C3001 0b0000 { rn := 0x0, rm := 0x1 } =
    done (some 0x80000000) none (some 0b1010) 0b0000 := by decide

-- 95_test_vectors.md, MOV
theorem test_mov : ran 0x0D0004 0b0011 { rn := 0xF0F0F0F0, rm := 0xFF00FF1 } =
    done (some 0xFF00FF10) none (some 0b1001) 0b0011 := by decide

-- 42_dp_register.md, BIC
theorem test_bic : ran 0x0E0008 0b0000 { rn := 0xFFFFFFFF, rm := 0xFF } =
    done (some 0xFFFF00FF) none (some 0b1000) 0b0000 := by decide

-- 95_test_vectors.md, MVN
theorem test_mvn : ran 0x0F0004 0b0011 { rn := 0xF0F0F0F0, rm := 0xFF00FF1 } =
    done (some 0xFF00EF) none (some 0b0001) 0b0011 := by decide

-- 95_test_vectors.md, AND_RS
theorem test_andRs : ran 0x101000 0b0010 { rn := 0xF0F0F0F0, rm := 0xFF00FF1, rs := 0x104 } =
    done (some 0xF000F0) none (some 0b0000) 0b0010 := by decide

-- 95_test_vectors.md, EOR_RS
theorem test_eorRs : ran 0x111000 0b0010 { rn := 0xF0F0F0F0, rm := 0xFF00FF1, rs := 0x104 } =
    done (some 0xF00FF00F) none (some 0b1000) 0b0010 := by decide

-- 42_dp_register.md, SUB_RS
theorem test_subRs : ran 0x120000 0b0000 { rn := 0x100, rm := 0x1, rs := 0x104 } =
    done (some 0xF0) none (some 0b0010) 0b0000 := by decide

-- 95_test_vectors.md, RSB_RS
theorem test_rsbRs : ran 0x131000 0b0010 { rn := 0xF0F0F0F0, rm := 0xFF00FF1, rs := 0x104 } =
    done (some 0x100E100F) none (some 0b0000) 0b0010 := by decide

-- 95_test_vectors.md, ADD_RS
theorem test_addRs : ran 0x141000 0b0010 { rn := 0xF0F0F0F0, rm := 0xFF00FF1, rs := 0x104 } =
    done (some 0xF1EFF1EF) none (some 0b1000) 0b0010 := by decide

-- 95_test_vectors.md, ADC_RS
theorem test_adcRs : ran 0x151000 0b0010 { rn := 0xF0F0F0F0, rm := 0xFF00FF1, rs := 0x104 } =
    done (some 0xF1EFF1F0) none (some 0b1000) 0b0010 := by decide

-- 95_test_vectors.md, SBC_RS
theorem test_sbcRs : ran 0x161000 0b0010 { rn := 0xF0F0F0F0, rm := 0xFF00FF1, rs := 0x104 } =
    done (some 0xEFF1EFF1) none (some 0b1010) 0b0010 := by decide

-- 95_test_vectors.md, RSC_RS
theorem test_rscRs : ran 0x171000 0b0010 { rn := 0xF0F0F0F0, rm := 0xFF00FF1, rs := 0x104 } =
    done (some 0x100E100F) none (some 0b0000) 0b0010 := by decide

-- 95_test_vectors.md, ORR_RS
theorem test_orrRs : ran 0x1C1000 0b0010 { rn := 0xF0F0F0F0, rm := 0xFF00FF1, rs := 0x104 } =
    done (some 0xF0FFF0FF) none (some 0b1000) 0b0010 := by decide

-- 95_test_vectors.md, MOV_RS
theorem test_movRs : ran 0x1D2000 0b0010 { rm := 0x80000001, rs := 0x104 } =
    done (some 0xF8000000) none (some 0b1000) 0b0010 := by decide

-- 95_test_vectors.md, BIC_RS
theorem test_bicRs : ran 0x1E1000 0b0010 { rn := 0xF0F0F0F0, rm := 0xFF00FF1, rs := 0x104 } =
    done (some 0xF000F000) none (some 0b1000) 0b0010 := by decide

-- 95_test_vectors.md, MVN_RS
theorem test_mvnRs : ran 0x1F1000 0b0010 { rn := 0xF0F0F0F0, rm := 0xFF00FF1, rs := 0x104 } =
    done (some 0xFF00FF00) none (some 0b1000) 0b0010 := by decide

-- 95_test_vectors.md, I_AND
theorem test_iAnd : ran 0x200000 0b0001 { rn := 0xF0F0F0F0, imm12 := 0x4FF } =
    done (some 0xF0000000) none (some 0b1011) 0b0001 := by decide

-- 43_dp_immediate.md, I_EOR
theorem test_iEor : ran 0x210000 0b0000 { rn := 0x0, imm12 := 0x102 } =
    done (some 0x80000000) none (some 0b1010) 0b0000 := by decide

-- 43_dp_immediate.md, I_SUB
theorem test_iSub : ran 0x220000 0b0000 { rn := 0x80000000, imm12 := 0x1 } =
    done (some 0x7FFFFFFF) none (some 0b0011) 0b0000 := by decide

-- 43_dp_immediate.md, I_RSB
theorem test_iRsb : ran 0x230000 0b0000 { rn := 0x80000000, imm12 := 0x0 } =
    done (some 0x80000000) none (some 0b1001) 0b0000 := by decide

-- 95_test_vectors.md, I_ADD
theorem test_iAdd : ran 0x240000 0b0001 { rn := 0xF0F0F0F0, imm12 := 0x4FF } =
    done (some 0xEFF0F0F0) none (some 0b1010) 0b0001 := by decide

-- 95_test_vectors.md, I_ADC
theorem test_iAdc : ran 0x250000 0b0001 { rn := 0xF0F0F0F0, imm12 := 0x4FF } =
    done (some 0xEFF0F0F0) none (some 0b1010) 0b0001 := by decide

-- 95_test_vectors.md, I_SBC
theorem test_iSbc : ran 0x260000 0b0001 { rn := 0xF0F0F0F0, imm12 := 0x4FF } =
    done (some 0xF1F0F0EF) none (some 0b1000) 0b0001 := by decide

-- 95_test_vectors.md, I_RSC
theorem test_iRsc : ran 0x270000 0b0001 { rn := 0xF0F0F0F0, imm12 := 0x4FF } =
    done (some 0xE0F0F0F) none (some 0b0010) 0b0001 := by decide

-- 95_test_vectors.md, I_ORR
theorem test_iOrr : ran 0x2C0000 0b0001 { rn := 0xF0F0F0F0, imm12 := 0x4FF } =
    done (some 0xFFF0F0F0) none (some 0b1011) 0b0001 := by decide

-- 95_test_vectors.md, I_MOV
theorem test_iMov : ran 0x2D0000 0b0001 { rn := 0xF0F0F0F0, imm12 := 0x4FF } =
    done (some 0xFF000000) none (some 0b1011) 0b0001 := by decide

-- 43_dp_immediate.md, I_BIC
theorem test_iBic : ran 0x2E0000 0b0000 { rn := 0xFFFFFFFF, imm12 := 0x102 } =
    done (some 0x7FFFFFFF) none (some 0b0010) 0b0000 := by decide

-- 95_test_vectors.md, I_MVN
theorem test_iMvn : ran 0x2F0000 0b0001 { rn := 0xF0F0F0F0, imm12 := 0x4FF } =
    done (some 0xFFFFFF) none (some 0b0011) 0b0001 := by decide

-- 43_dp_immediate.md, ADR_ADD
theorem test_adrAdd : ran 0x340000 0b0000 { rn := 0x8006, imm12 := 0x10 } =
    done (some 0x8014) none none 0b0000 := by decide

-- 43_dp_immediate.md, ADR_SUB
theorem test_adrSub : ran 0x320000 0b0000 { rn := 0x8006, imm12 := 0x10 } =
    done (some 0x7FF4) none none 0b0000 := by decide

-- 44_multiply.md, MUL
theorem test_mul : ran 0x400000 0b0000 { rn := 0xFFFFFFFF, rm := 0x2 } =
    done (some 0xFFFFFFFE) none (some 0b1000) 0b0000 := by decide

-- 44_multiply.md, MLA
theorem test_mla : ran 0x410000 0b0000 { rn := 0x3, rm := 0x5, ra := 0x7 } =
    done (some 0x16) none (some 0b0000) 0b0000 := by decide

-- 44_multiply.md, UMAAL
theorem test_umaal : ran 0x420000 0b0011 { rn := 0x10000, rm := 0x10000, rdhi := 0x1, rdlo := 0x2 } =
    done (some 0x3) (some 0x1) none 0b0011 := by decide

-- 44_multiply.md, MLS
theorem test_mls : ran 0x430000 0b0011 { rn := 0x3, rm := 0x5, ra := 0x0 } =
    done (some 0xFFFFFFF1) none none 0b0011 := by decide

-- 44_multiply.md, UMULL
theorem test_umull : ran 0x440000 0b0000 { rn := 0x12345678, rm := 0x9ABCDEF0 } =
    done (some 0x242D2080) (some 0xB00EA4E) (some 0b0000) 0b0000 := by decide

-- 44_multiply.md, UMLAL
theorem test_umlal : ran 0x450000 0b0000 { rn := 0x0, rm := 0x0, rdhi := 0x80000000, rdlo := 0x0 } =
    done (some 0x0) (some 0x80000000) (some 0b1000) 0b0000 := by decide

-- 44_multiply.md, SMULL
theorem test_smull : ran 0x460000 0b0011 { rn := 0x80000000, rm := 0x7FFFFFFF } =
    done (some 0x80000000) (some 0xC0000000) (some 0b1011) 0b0011 := by decide

-- 44_multiply.md, SMLAL
theorem test_smlal : ran 0x470000 0b0000 { rn := 0x80000000, rm := 0x80000000, rdhi := 0x40000000, rdlo := 0x0 } =
    done (some 0x0) (some 0x80000000) (some 0b1000) 0b0000 := by decide

-- 95_test_vectors.md, EXTRACTBITS
theorem test_extractBits : ran 0x601308 0b0101 { imm12 := 0x208 } =
    done (some 0x2) none none 0b0101 := by decide

-- 95_test_vectors.md, WRITEBITS
theorem test_writeBits : ran 0x611308 0b0101 { imm12 := 0x0, rm := 0xFFFFFFFF } =
    done (some 0xF00) none none 0b0101 := by decide

-- 40_bitfield.md, COUNTBITS
theorem test_countBits : ran 0x620000 0b0011 { rn := 0xF0F0 } =
    done (some 0x8) none none 0b0011 := by decide

-- 45_flags_commit.md R230, the example
theorem test_commit : ran 0x500000 0b0000 { fin := 0xA } = done none none none 0b1010 := by decide

-- 95_test_vectors.md, the MLS row with `MLS_REPORTS_FLAGS`
theorem test_mls_reporting_flags : ranWith { mlsReportsFlags := true } 0x430000 0b0011 { rn := 3, rm := 5, ra := 15 } =
    done (some 0) none (some 0b0111) 0b0011 := by decide

-- 43_dp_immediate.md R192: the base as it is when the block does not align it
theorem test_adr_unaligned_base : ranWith { adrAlignsBase := false } 0x340000 0 { rn := 0x8006, imm12 := 0x010 } =
    done (some 0x8016) none none 0 := by decide

-- 60_exceptions.md R241, R242, R244
theorem test_errors :
    ran 0x600840 0b1010 { rn := 5 } = failed .bitRange 0b1010 ∧
    ran 0x0D0020 0b1010 { rm := 5 } = failed .shiftAmountOutOfRange 0b1010 ∧
    ran 0x700000 0b1010 {} = failed .reservedCommand 0b1010 := by decide

-- 45_flags_commit.md R231: `fin` driven from `fout` is sampled before the COMMIT
theorem test_commit_from_fout :
    nzcvPort (after 2 (block 0 [txn 0x040000 { rn := 0xFFFFFFFF, rm := 1 }, { cmd := 0x500000, fin := .fout }])) =
      0b0110 := by decide

-- 70_reset_and_hazards.md R276: after ADR there is no candidate set to commit
theorem test_commit_of_no_candidate_is_refused :
    step (after 1 (block 0 [txn 0x340000 {}, { cmd := 0x500000, fin := .fout }])) = .refused .outputHasNoValue := rfl

-- 20_memory.md R41: a port the command does not use is ignored, also when what drives it has no value
theorem test_unread_port_needs_no_value :
    (nextOf (step (block 0 [{ cmd := 0x240000, rn := .value 1, imm12 := 2, rm := .result, fin := .fout }]))).map
      (·.out.result) = some (some 3) := by decide

-- 60_exceptions.md R248: decode and the argument check come before any port is used
theorem test_errors_read_no_port :
    (nextOf (step (block 0 [{ cmd := 0x0D0020, rm := .result }]))).map (·.out.err) =
      some (some .shiftAmountOutOfRange) ∧
    (nextOf (step (block 0 [{ cmd := 0x700000, fin := .fout }]))).map (·.out.err) =
      some (some .reservedCommand) := by decide

-- 93_implementation_defined.md U5: MOV reads `rm`, which is driven from an output that has no value
theorem test_read_port_without_value_is_refused :
    step (block 0 [{ cmd := 0x0D0000, rm := .result }]) = .refused .outputHasNoValue := rfl

-- The form in which the host places an instruction
theorem test_placed_word_runs : (nextOf (step (State.reset.withFetchWord 24 0x620000))).map (·.out.result) =
    some (some 0) ∧ decodeTableWord 24 0x620000 = some .countBits ∧ decodeTableWord 24 0x700000 = none := by decide

/-! ## Witnesses: for each obligation with hypotheses, states and operands that meet them -/

/-- Three transactions of which the second fails: for the statements about steps and runs. -/
def threeSteps : State :=
  block 0b0101 [txn 0x240000 { rn := 1, imm12 := 2 }, txn 0x0D0020 {}, txn 0x500000 { fin := 0b1010 }]

theorem witness_DecodeInvertsEncode :
    (Instr.mvn .rotateRight 255).wellFormed = true ∧ (Instr.writeBits .imm12 63 63).wellFormed = true ∧
    (Instr.extractBits .word 0 0).wellFormed = true ∧ Instr.commit.wellFormed = true := by decide

theorem witness_EncodeInvertsDecode : decode 0x610FFF#24 = .ok (.writeBits .word 63 63) := by decide

theorem witness_DecoderFollowsOpcodeTable :
    decode 0x0F30FF#24 = .ok (.mvn .rotateRight 255) ∧ decode 0x0F3100#24 = .error .reservedBits ∧
    { State.reset with inp := { cmd := 0x0F3100 } }.inp.cmd = 0x0F3100#24 := by decide

/-- One word for each clause of `listedReserved`, at the boundary where there is one. -/
theorem witness_ReservedWordsAreTheListedOnes :
    (listedReserved 0x700000#24 ∧ listedReserved 0x280000#24 ∧ listedReserved 0x0B0000#24 ∧
      listedReserved 0x330000#24) ∧
    (listedReserved 0x480000#24 ∧ listedReserved 0x510000#24 ∧ listedReserved 0x630000#24 ∧
      listedReserved 0x004000#24) ∧
    (listedReserved 0x000100#24 ∧ listedReserved 0x104000#24 ∧ listedReserved 0x100001#24 ∧
      listedReserved 0x201000#24) ∧
    (listedReserved 0x500001#24 ∧ listedReserved 0x602000#24 ∧ listedReserved 0x620001#24 ∧
      listedReserved 0x621000#24) ∧
    (∃ e, decode 0x630000#24 = .error e) ∧ ¬ listedReserved 0x601FFF#24 := by
  refine ⟨?_, ?_, ?_, ?_, ⟨_, rfl⟩, ?_⟩ <;> simp [listedReserved]

theorem witness_StepRunsDecodedCommand :
    haltingError threeSteps = none ∧
    threeSteps.pending = txn 0x240000 { rn := 1, imm12 := 2 } :: threeSteps.pending.tail ∧
    (txn 0x240000 { rn := 1, imm12 := 2 }).sample threeSteps = some { cmd := 0x240000, rn := 1, imm12 := 2 } ∧
    decode 0x240000#24 = .ok .iAdd := by decide

theorem witness_PlacedWordRunsNext :
    0x6207FF < 2 ^ 24 ∧ 0x620000 < 2 ^ 24 ∧ decode (BitVec.ofNat 24 0x620000) = .ok .countBits := by decide

theorem witness_StepTakesOneTransaction : step threeSteps = .next (after 1 threeSteps) := rfl

theorem witness_RunEndsWithTheTransactions :
    Sys2Proof.core.run 3 threeSteps = .next (after 3 threeSteps) ∧ haltingError (after 3 threeSteps) = none ∧
    (after 3 threeSteps).pending = [] := ⟨rfl, by decide, by decide⟩

/-- A transaction that reads an empty output, one that has such an output on a port it does not read, and one whose
argument check fails first, each pending with no halting error. -/
theorem witness_CallerNeverDrivesFromAnEmptyOutput :
    let t1 : Transaction := { cmd := 0x0D0000, rm := .result }
    let t2 : Transaction := { cmd := 0x240000, rm := .resulthi, fin := .fout }
    let t3 : Transaction := { cmd := 0x0D0020, rm := .result }
    haltingError (block 0 [t1]) = none ∧ haltingError (block 0 [t2]) = none ∧ haltingError (block 0 [t3]) = none ∧
    readsEmptyOutput t1 (block 0 [t1]) ∧ ¬ readsEmptyOutput t2 (block 0 [t2]) ∧
    ¬ readsEmptyOutput t3 (block 0 [t3]) := by
  have d1 : decode 0x0D0000#24 = .ok (.mov .logicalLeft 0) := by decide
  have d2 : decode 0x240000#24 = .ok .iAdd := by decide
  have d3 : decode 0x0D0020#24 = .ok (.mov .logicalLeft 32) := by decide
  refine ⟨rfl, rfl, rfl, ⟨_, d1, rfl, .inr (.inl ⟨rfl, .inl ⟨rfl, rfl⟩⟩)⟩, ?_, ?_⟩
  · rintro ⟨i, hi, -, hr⟩
    cases d2.symm.trans hi
    simp [portUse, emptyWord] at hr
  · rintro ⟨i, hi, ha, -⟩
    cases d3.symm.trans hi
    simp [argumentError, checkAmount] at ha

/-- For each command of the list: it completes, COMMIT of `fout` is pending, and the caller does not halt. -/
theorem witness_CallerNeverDrivesFromAnEmptyOutput_commit :
    let s : State := block 0 [{ cmd := 0x500000, fin := .fout }]
    s.params.mlsReportsFlags = false ∧
    ∀ i ∈ [Instr.adrAdd, .adrSub, .umaal, .mls, .extractBits .word 8 32, .writeBits .imm12 0 13, .countBits],
      ∃ u, exec i s = .next u ∧ u.pending = [{ cmd := 0x500000, fin := .fout }] ∧ haltingError u = none := by
  refine ⟨rfl, ?_⟩
  simp only [List.forall_mem_cons, List.not_mem_nil, false_imp_iff, implies_true, and_true]
  exact ⟨⟨_, rfl, rfl, rfl⟩, ⟨_, rfl, rfl, rfl⟩, ⟨_, rfl, rfl, rfl⟩, ⟨_, rfl, rfl, rfl⟩, ⟨_, rfl, rfl, rfl⟩,
    ⟨_, rfl, rfl, rfl⟩, ⟨_, rfl, rfl, rfl⟩⟩

/-- Both sides: a caller that halts stops after the failing transaction; another goes on. -/
theorem witness_OnlyAHaltingCallerFaults :
    let s : State := { threeSteps with params := { errorDisposition := .halt } }
    (after 2 s).params.errorDisposition = .halt ∧ (after 2 s).out.err = some .shiftAmountOutOfRange ∧
    nextOf (step (after 2 s)) = none ∧ nextOf (step (after 2 threeSteps)) ≠ none := by decide

/-- A run that halts at its failing last transaction, and one that ends well. -/
theorem witness_HaltingCallerEndsAtTheFirstError :
    let s : State := { threeSteps with params := { errorDisposition := .halt } }
    let w : State := { block 0 [txn 0x620000 {}] with params := { errorDisposition := .halt } }
    s.params.errorDisposition = .halt ∧ Sys2Proof.core.run 2 s = .next (after 2 s) ∧ (after 2 s).out.err ≠ none ∧
    Sys2Proof.core.run 1 w = .next (after 1 w) ∧ (after 1 w).final = true :=
  ⟨rfl, rfl, by decide, rfl, by decide⟩

theorem witness_FailingTransactionLeavesNoTrace :
    let s := after 1 threeSteps
    step s = .next (after 2 threeSteps) ∧ (after 2 threeSteps).out.err ≠ none ∧
    (after 2 threeSteps).pending = [txn 0x500000 { fin := 0b1010 }] ∧
    (txn 0x500000 { fin := 0b1010 }).own = true ∧ s.params.errorDisposition = .undefinedFault :=
  ⟨rfl, by decide, by decide, by decide, by decide⟩

/-- A step that commits, and one that does not. -/
theorem witness_OnlyCommitWritesNZCV :
    step (after 2 threeSteps) = .next (after 3 threeSteps) ∧ (after 3 threeSteps).inp.cmd = 0x500000#24 ∧
    step threeSteps = .next (after 1 threeSteps) ∧ (after 1 threeSteps).inp.cmd ≠ 0x500000#24 :=
  ⟨rfl, by decide, rfl, by decide⟩

theorem witness_FlagsAreThoseOfTheLatestCommit :
    Sys2Proof.core.run 3 threeSteps = .next (after 3 threeSteps) ∧ (trace 3 threeSteps).any State.committed = true :=
  ⟨rfl, by decide⟩

theorem witness_StoredFlagsReachOnlyListedOutputs :
    resultUsesCarry (.mov .rotateRight 1) = false ∧ resultUsesCarry .smlal = false ∧
    portsDetermine {} (.add .rotateRight 1) = true ∧ portsDetermine {} .mls = true ∧
    resultUsesCarry (.and .logicalLeft 1) = false ∧ carryReachesFout State.reset (.and .logicalLeft 1) = false ∧
    overflowReachesFout {} (.adc .logicalLeft 0) = false ∧ argumentError (.and .arithmeticRight 0) = none ∧
    carryReachesFout State.reset (.and .arithmeticRight 0) = true ∧
    carryReachesFout { State.reset with inp := { rs := 0x100 } } (.movRs .rotateRight) = true ∧
    carryReachesFout { State.reset with inp := { imm12 := 0x0FF } } .iMvn = true ∧
    carryReachesFout { State.reset with inp := { imm12 := 0x100 } } .iMvn = false ∧
    overflowReachesFout {} (.and .rotateRight 0) = true ∧ overflowReachesFout {} .smlal = true := by decide

/-- Ports that differ where ADR and COMMIT do not read. -/
theorem witness_UnusedPortsAreIgnored :
    agreeOn (portUse .adrAdd) { rn := 5, imm12 := 3 } { rn := 5, imm12 := 3, rm := 7, fin := 9 } ∧
    agreeOn (portUse .commit) { fin := 9 } { fin := 9, rn := 1, cmd := 2 } ∧
    decode 0x340000#24 = .ok .adrAdd ∧
    drivesAgree (portUse .adrAdd) { cmd := 0x340000, rn := .value 5 }
      { cmd := 0x340000, rn := .value 5, rm := .result, fin := .fout } := by
  unfold agreeOn drivesAgree
  decide

theorem witness_ValidBitsFollowTheTable :
    (nextOf (exec .umaal State.reset)).map (·.out.err) = some none ∧
    (nextOf (exec (.mov .logicalLeft 32) State.reset)).map (·.out.err) = some (some .shiftAmountOutOfRange) := by
  decide

theorem witness_StepKeepsOutputsWellFormed :
    step (after 1 threeSteps) = .next (after 2 threeSteps) ∧ (after 2 threeSteps).out.err ≠ none :=
  ⟨rfl, by decide⟩

/-- Each error at the edge of its cause, and no error on the other side of the edge. -/
theorem witness_ErrorsAreExactlyTheListedCauses :
    let err (c : Cmd) := (nextOf (runSampled { State.reset with inp := { cmd := c } })).map (·.out.err)
    err 0x600800 = some none ∧ err 0x600840 = some (some .bitRange) ∧ err 0x600820 = some none ∧
    err 0x611300 = some none ∧ err 0x611340 = some (some .bitRange) ∧ err 0x600001 = some (some .bitRange) ∧
    err 0x0D001F = some none ∧ err 0x0D0020 = some (some .shiftAmountOutOfRange) ∧
    err 0x0D00FF = some (some .shiftAmountOutOfRange) ∧ err 0x0D0100 = some (some .reservedCommand) := by decide

theorem witness_RaisingChangesOnlyErr :
    decode 0x0D0100#24 = .error .reservedBits ∧
    decode 0x0D0020#24 = .ok (.mov .logicalLeft 32) ∧
    argumentError (.mov .logicalLeft 32) = some .shiftAmountOutOfRange ∧
    decode 0x600840#24 = .ok (.extractBits .word 0 33) ∧ argumentError (.extractBits .word 0 33) = some .bitRange ∧
    argumentError (.mov .logicalLeft 31) = none ∧ argumentError (.extractBits .word 32 32) = none := by decide

theorem witness_BlocksOfDifferentCoresAreIndependent :
    let sys : System := [threeSteps, after 1 threeSteps]
    (0 : Nat) ≠ 1 ∧ System.step 0 sys = .next [after 1 threeSteps, after 1 threeSteps] ∧
    System.step 1 [after 1 threeSteps, after 1 threeSteps] = .next [after 1 threeSteps, after 2 threeSteps] :=
  ⟨by decide, rfl, rfl⟩

theorem witness_ShiftByZeroIsIdentityOrRRX : ShiftType.arithmeticRight ≠ .rotateRight ∧ (0 : Nat) < 31 ∧ 30 < 31 := by
  decide

/-- The amounts 1 and 31, and the bits they move in or out, for `LeftShiftMultiplies`, `RightShiftDivides`,
`ArithmeticShiftFloors` and `RotateMovesEveryBit`. -/
theorem witness_shifts_by_1_to_31 :
    (∀ n ∈ [1, 31], 1 ≤ n ∧ n ≤ 31) ∧ (32 - 1 ≤ 31 ∧ 31 ≤ 31) ∧ (32 - 31 ≤ 1 ∧ 1 ≤ 31) ∧ (0 ≤ 31 - 31) := by
  decide

theorem witness_LongShiftsSaturate :
    32 ≤ 32 ∧ 32 ≤ 255 ∧ (0x80000000#32).getLsbD 31 = true ∧ (0x7FFFFFFF#32).getLsbD 31 = false := by decide

theorem witness_LongRotateReduces : 32 ≤ 33 ∧ 32 ≤ 64 ∧ 64 % 32 = 0 := by decide

/-- One case for each of the four subtractions. -/
theorem witness_SubtractionIsNotBorrow :
    (adderSub 3 5 = adderSub 3 5 ∧ (-2 : Int) = (3#32).toNat - (5#32).toNat) ∧
    (adderSbc 3 5 false = adderSbc 3 5 false ∧ (-3 : Int) = (3#32).toNat - (5#32).toNat - (1 - false.toNat)) ∧
    (adderRsb 3 5 = adderRsb 3 5 ∧ (2 : Int) = (5#32).toNat - (3#32).toNat) ∧
    (adderRsc 3 5 true = adderRsc 3 5 true ∧ (2 : Int) = (5#32).toNat - (3#32).toNat - (1 - true.toNat)) := by decide

theorem witness_ExpanderRotatesTheByte :
    (0x0FF#12).toNat / 2 ^ 8 = 0 ∧ (0x100#12).toNat / 2 ^ 8 ≠ 0 ∧ (0xFFF#12).toNat / 2 ^ 8 ≠ 0 := by decide

theorem witness_ExpanderCarryFacts :
    (0x4FF#12).toNat / 2 ^ 8 ≠ 0 ∧ (processImm12 0x480#12 false).carry = true ∧
    (0x5FF#12).toNat / 2 ^ 8 ≠ 0 ∧ (processImm12 0x0FF#12 true).value = 0xFF#32 := by decide

/-- Legal bounds at the ends of both containers, and the first illegal ones, for `ExtractReadsTheField`,
`WriteReplacesTheField`, `AccessorLaws` and `BitFieldCommands`. -/
theorem witness_field_bounds :
    (∀ b ∈ [(0, 0), (0, 32), (31, 32), (32, 32)], b.1 ≤ b.2 ∧ b.2 ≤ 32) ∧
    (∀ b ∈ [(0, 0), (0, 12), (12, 12)], b.1 ≤ b.2 ∧ b.2 ≤ 12) ∧
    (∀ b ∈ [(1, 0), (0, 33), (33, 33), (63, 62)], b.1 > b.2 ∨ b.2 > 32) ∧
    (∀ b ∈ [(1, 0), (0, 13), (13, 13)], b.1 > b.2 ∨ b.2 > 12) := by decide

/-- The field commands at those bounds complete, or raise. -/
theorem witness_BitFieldCommands :
    argumentError (.extractBits .word 32 32) = none ∧ argumentError (.extractBits .word 33 33) = some .bitRange ∧
    argumentError (.writeBits .imm12 12 12) = none ∧ argumentError (.writeBits .imm12 0 13) = some .bitRange ∧
    (63 < 64 ∧ 0 < 64) := by decide

theorem witness_CountIsKernighans : 32 ≤ 32 ∧ kernighanCount 32 0xFFFFFFFF = 32 := by decide

theorem witness_FieldReadsAreExtractions : 0 < 32 ∧ 31 < 32 := by decide

/-- The literal amounts where the clauses meet, for `LiteralBitwiseCommands` and `LiteralArithmeticCommands`. -/
theorem witness_literal_amounts : (0 < 32 ∧ 31 < 32) ∧ (32 ≤ 32 ∧ 32 ≤ 255) ∧ (0 < 256 ∧ 32 < 256 ∧ 255 < 256) := by
  decide

theorem witness_AddressCommands :
    ({ State.reset with inp := { rn := 0xFFFFFFFC } } : State).inp.rn.toNat % 4 = 0 := by decide

end Sys2Proof.Tests
end

section
/-! SUPPORT. What the register `NZCV` keeps and takes (spec/10_state.md R20 to R24): the word of COMMIT, what a
transaction does to the register, which stored flags a command reads, and the packing of a flag set. -/

namespace Sys2Proof.Machine

open Sys2Proof.Claims

/-! ## COMMIT has one word (R67) -/

theorem decodeDpr_ne_commit (op mod : BitVec 4) (arg : BitVec 12) : decodeDpr op mod arg ≠ .ok .commit := by
  have hcommand : ∀ command, dprCommand op = some command → ∀ type amt, command type amt ≠ .commit := by
    unfold dprCommand
    split <;> simp
  unfold decodeDpr
  split
  · simp
  · simp
  · next command type hop _ =>
    split
    · simpa using hcommand command hop type _
    · simp

theorem decodeDprs_ne_commit (op mod : BitVec 4) (arg : BitVec 12) : decodeDprs op mod arg ≠ .ok .commit := by
  have hcommand : ∀ command, dprsCommand op = some command → ∀ type, command type ≠ .commit := by
    unfold dprsCommand
    split <;> simp
  unfold decodeDprs
  split
  · simp
  · simp
  · next command type hop _ =>
    split
    · simpa using hcommand command hop type
    · simp

theorem decodeBits_ne_commit (op mod : BitVec 4) (arg : BitVec 12) : decodeBits op mod arg ≠ .ok .commit := by
  unfold decodeBits
  split
  case h_3 => split <;> simp
  all_goals simp

theorem fixedCommand_eq_commit : ∀ {grp op : BitVec 4}, fixedCommand grp op = some .commit → grp = 5 ∧ op = 0 := by
  decide

theorem decodeFixed_eq_commit {grp op mod : BitVec 4} {arg : BitVec 12}
    (h : decodeFixed grp op mod arg = .ok .commit) : grp = 5 ∧ op = 0 ∧ mod = 0 ∧ arg = 0 := by
  unfold decodeFixed at h
  split at h
  · cases h
  · next i hi =>
    split at h
    · next hzero =>
      cases h
      obtain ⟨hgrp, hop⟩ := fixedCommand_eq_commit hi
      exact ⟨hgrp, hop, hzero⟩
    · cases h

/-- The converse of `decode_commit`. -/
theorem eq_of_decode_commit {c : Cmd} (h : decode c = .ok .commit) : c = 0x500000#24 := by
  unfold decode at h
  split at h
  · exact absurd h (decodeDpr_ne_commit _ _ _)
  · exact absurd h (decodeDprs_ne_commit _ _ _)
  case h_7 => exact absurd h (decodeBits_ne_commit _ _ _)
  case h_8 => cases h
  all_goals
    obtain ⟨hgrp, hop, hmod, harg⟩ := decodeFixed_eq_commit h
    rw [← cmdOf_fields c, hgrp, hop, hmod, harg]
    decide

/-! ## What a transaction does to the register (R21, R230, R245) -/

/-- A transaction keeps its sampled ports, and leaves the register alone or, for the one word of COMMIT, replaces it
by the set on `fin`. -/
theorem runSampled_inp_nzcv {s s' : State} (h : runSampled s = .next s') :
    s'.inp = s.inp ∧ s'.nzcv = if s.inp.cmd = 0x500000#24 then unpackFlags s.inp.fin else s.nzcv := by
  by_cases hc : s.inp.cmd = 0x500000#24
  · rw [runSampled_ok (hc ▸ decode_commit), exec_commit] at h
    cases h
    simp [hc]
  · cases hd : decode s.inp.cmd with
    | error e =>
      rw [runSampled_error hd] at h
      cases h
      simp [hc]
    | ok i =>
      have hi : i ≠ .commit := fun hi => hc (eq_of_decode_commit (hi ▸ hd))
      obtain ⟨o, ho⟩ := exec_respond i s hi
      rw [runSampled_ok hd, ho] at h
      cases h
      simp [hc]

/-- Settles O18: a step is one transaction, and of those only the one of COMMIT's word touches the register. -/
theorem onlyCommitWritesNZCV : Obligations.OnlyCommitWritesNZCV := by
  intro s s' h
  obtain ⟨t, rest, p, -, -, -, hrun⟩ := step_cases h
  obtain ⟨hinp, hnzcv⟩ := runSampled_inp_nzcv hrun
  simp only [hinp, hnzcv, present_inp, present_nzcv]
  constructor
  · intro hc
    simp [hc, unpackFlags]
  · intro hc
    simp [hc]

/-! ## The stored flags a command reads (R23) -/

/-- `s` with other stored N and Z, and the stored C and V as they are. -/
def State.withNZ (s : State) (n z : Bool) : State := { s with nzcv := ⟨n, z, s.nzcv.c, s.nzcv.v⟩ }

theorem withLiteral_withNZ {type : ShiftType} {amt : Nat} {s : State} {n z : Bool} {k : Shifted → State → State}
    (hk : ∀ op2, (k op2 (s.withNZ n z)).out = (k op2 s).out) :
    ∃ t u, withLiteral type amt s k = .next t ∧ withLiteral type amt (s.withNZ n z) k = .next u ∧ u.out = t.out := by
  unfold withLiteral
  cases checkAmount amt with
  | some e => exact ⟨_, _, rfl, rfl, rfl⟩
  | none => exact ⟨_, _, rfl, rfl, hk _⟩

/-- The outputs of a bit-field command are those of its value or its error, whatever the state. -/
theorem answerField_out_eq (r : Except ErrorKind Nat) (s u : State) : (answerField r u).out = (answerField r s).out := by
  cases r <;> rfl

/-- Every command completes, and with the same outputs whatever the stored N and Z. -/
theorem exec_withNZ (i : Instr) (s : State) (n z : Bool) :
    ∃ t u, exec i s = .next t ∧ exec i (s.withNZ n z) = .next u ∧ u.out = t.out := by
  cases i with
  | and | eor | sub | rsb | add | adc | sbc | rsc | orr | mov | bic | mvn =>
    exact withLiteral_withNZ fun _ => rfl
  | extractBits | writeBits => exact ⟨_, _, rfl, rfl, answerField_out_eq _ _ _⟩
  | mls =>
    refine ⟨_, _, rfl, rfl, ?_⟩
    unfold State.withNZ
    split <;> rfl
  | _ => exact ⟨_, _, rfl, rfl, rfl⟩

theorem outputs_of_exec {i : Instr} {s t : State} (h : exec i s = .next t) : outputs i s = some t.out := by
  simp [outputs, h]

/-- Settles O20: `exec_withNZ`, read on the outputs. -/
theorem commandsReadOnlyCAndV : Obligations.CommandsReadOnlyCAndV := by
  intro i s n z
  obtain ⟨t, u, ht, hu, hout⟩ := exec_withNZ i s n z
  constructor
  · simp [outputs_of_exec ht]
  · calc outputs i (s.withNZ n z) = some u.out := outputs_of_exec hu
      _ = some t.out := by rw [hout]
      _ = outputs i s := (outputs_of_exec ht).symm

/-! ## The packing of a flag set (R22, R24) -/

theorem packFlags_getLsbD (f : Nzcv) :
    (packFlags f).getLsbD 3 = f.n ∧ (packFlags f).getLsbD 2 = f.z ∧ (packFlags f).getLsbD 1 = f.c ∧
      (packFlags f).getLsbD 0 = f.v := by
  obtain ⟨n, z, c, v⟩ := f
  revert n z c v
  decide

@[simp] theorem unpackFlags_packFlags (f : Nzcv) : unpackFlags (packFlags f) = f := by
  obtain ⟨hn, hz, hc, hv⟩ := packFlags_getLsbD f
  simp only [unpackFlags, hn, hz, hc, hv]

@[simp] theorem packFlags_unpackFlags : ∀ b : FlagBits, packFlags (unpackFlags b) = b := by
  decide

/-- The packed set is the number of the rule: N counts 8, Z 4, C 2, V 1. -/
theorem packFlags_eq_flagSet (f : Nzcv) : packFlags f = flagSet f.n f.z f.c f.v := by
  obtain ⟨n, z, c, v⟩ := f
  revert n z c v
  decide

/-- Settles O17: the bits one by one, and both inverses. -/
theorem flagPackingIsNZCV : Obligations.FlagPackingIsNZCV := by
  refine ⟨fun f => ?_, packFlags_unpackFlags, rfl, fun s => packFlags_eq_flagSet s.nzcv⟩
  obtain ⟨hn, hz, hc, hv⟩ := packFlags_getLsbD f
  exact ⟨hn, hz, hc, hv, unpackFlags_packFlags f⟩

end Sys2Proof.Machine
end

section
/-! SUPPORT. What a transaction does at the ports (spec/20_memory.md R41 to R45): how its ports are sampled, what it
answers on the outputs, and which ports its answer depends on. -/

namespace Sys2Proof.Machine

open Sys2Proof.Claims

/-! ## From the presented transaction to its command (R44, R76) -/

/-- A step of a block whose caller presents `t` is the command of `t` on the sampled ports. -/
theorem step_eq_exec {s : State} {t : Transaction} {rest : List Transaction} {p : InPorts} {i : Instr}
    (hh : haltingError s = none) (hp : s.pending = t :: rest) (ht : t.sample s = some p) (hd : decode p.cmd = .ok i) :
    step s = exec i (present p rest s) :=
  calc step s = runSampled (present p rest s) := step_of_sample hh hp ht
    _ = exec i (present p rest s) := runSampled_ok hd

theorem step_of_sample_none {s : State} {t : Transaction} {rest : List Transaction}
    (hh : haltingError s = none) (hp : s.pending = t :: rest) (ht : t.sample s = none) :
    step s = .refused .outputHasNoValue := by
  simp [step, runNext, hh, hp, ht]

theorem step_of_haltingError {s : State} {e : ErrorKind} (hh : haltingError s = some e) :
    step s = .fault (.haltedByCaller e) := by
  simp [step, hh]

/-- Settles O6: `step_eq_exec`. -/
theorem stepRunsDecodedCommand : Obligations.StepRunsDecodedCommand :=
  fun _ _ _ _ _ hh hp ht hd => step_eq_exec hh hp ht hd

/-- Settles O8: a port that carries a value is taken over as that value, read or not. -/
theorem ownPortValuesArriveUnchanged : Obligations.OwnPortValuesArriveUnchanged := by
  intro s cmd rn rm rs ra rdhi rdlo imm12 fin
  simp [Transaction.sample, takePorts]

theorem fetchTransaction_of_lt {w : Nat} (h : w < 2 ^ 24) : fetchTransaction 24 w = { cmd := BitVec.ofNat 24 w } := by
  rw [fetchTransaction, Nat.mod_eq_of_lt h]

/-- Settles O7: the placed transaction drives its ports with 0 itself, and no error is shown when it is presented. -/
theorem placedWordRunsNext : Obligations.PlacedWordRunsNext := by
  intro s w i hw hd
  have hh : haltingError (s.withFetchWord 24 w) = none := haltingError_of_no_error rfl
  have ht : (fetchTransaction 24 w).sample (s.withFetchWord 24 w) = some { cmd := BitVec.ofNat 24 w } := by
    rw [fetchTransaction_of_lt hw]
    exact ownPortValuesArriveUnchanged _ _ _ _ _ _ _ _ _ _
  exact step_eq_exec hh rfl ht hd

/-! ## What every transaction leaves alone (R7, R44, R45) -/

theorem exec_pending_params {i : Instr} {s t : State} (h : exec i s = .next t) :
    t.pending = s.pending ∧ t.params = s.params := by
  by_cases hi : i = .commit
  · rw [hi, exec_commit] at h
    cases h
    exact ⟨rfl, rfl⟩
  · obtain ⟨o, ho⟩ := exec_respond i s hi
    rw [ho] at h
    cases h
    exact ⟨rfl, rfl⟩

theorem runSampled_pending_params {s t : State} (h : runSampled s = .next t) :
    t.pending = s.pending ∧ t.params = s.params := by
  cases hd : decode s.inp.cmd with
  | error e =>
    rw [runSampled_error hd] at h
    cases h
    exact ⟨rfl, rfl⟩
  | ok i => exact exec_pending_params (runSampled_ok hd ▸ h)

/-- Settles O9: sampling takes the transaction off the list, and running it keeps ports, list and parameters. -/
theorem stepTakesOneTransaction : Obligations.StepTakesOneTransaction := by
  intro s s' h
  obtain ⟨t, rest, p, -, hpending, hsample, hrun⟩ := step_cases h
  obtain ⟨hinp, -⟩ := runSampled_inp_nzcv hrun
  obtain ⟨hrest, hparams⟩ := runSampled_pending_params hrun
  simp only [present_inp, present_pending, present_params] at hinp hrest hparams
  obtain ⟨hcmd, himm12⟩ := Transaction.sample_cmd hsample
  rw [hinp, hrest]
  exact ⟨hparams, t, hpending, hcmd, himm12, hsample⟩

/-! ## The flags after a run (R53) -/

/-- The latest COMMIT of a run is that of the states after the first, started with the flags that the first leaves. -/
theorem latestCommit_cons (f : Nzcv) (u : State) (us : List State) :
    latestCommit f (u :: us) = latestCommit (if u.committed then unpackFlags u.inp.fin else f) us := by
  simp only [latestCommit, List.reverse_cons, List.find?_append]
  cases us.reverse.find? State.committed with
  | some v => rfl
  | none => cases hu : u.committed <;> simp [hu, unpackFlags]

/-- What a step leaves in the register, in the words of a run (R21). -/
theorem step_nzcv {s t : State} (h : step s = .next t) :
    t.nzcv = if t.committed then unpackFlags t.inp.fin else s.nzcv := by
  obtain ⟨hcommit, hkeep⟩ := onlyCommitWritesNZCV s t h
  by_cases hc : t.inp.cmd = 0x500000#24
  · simp [State.committed, hc, hcommit hc, unpackFlags]
  · simp [State.committed, hc, hkeep hc]

/-- Settles O19, by induction on the number of steps. -/
theorem flagsAreThoseOfTheLatestCommit : Obligations.FlagsAreThoseOfTheLatestCommit := by
  intro k
  induction k with
  | zero =>
    intro s s' h
    rw [run_zero h]
    rfl
  | succ k ih =>
    intro s s' h
    obtain ⟨t, ht, hrun⟩ := run_succ_cases h
    calc s'.nzcv = latestCommit t.nzcv (trace k t) := ih t s' hrun
      _ = latestCommit s.nzcv (t :: trace k t) := by rw [latestCommit_cons, ← step_nzcv ht]
      _ = latestCommit s.nzcv (trace (k + 1) s) := by rw [trace_succ k ht]

/-! ## The argument check decides between error and completion (R42, R245, R248) -/

theorem withLiteral_of_error {type : ShiftType} {amt : Nat} {s : State} {k : Shifted → State → State} {e : ErrorKind}
    (h : checkAmount amt = some e) : withLiteral type amt s k = .next (raiseError e s) := by
  simp [withLiteral, h]

theorem withLiteral_of_ok {type : ShiftType} {amt : Nat} {s : State} {k : Shifted → State → State}
    (h : checkAmount amt = none) : withLiteral type amt s k = .next (k (literalOperand type amt s) s) := by
  simp [withLiteral, h]

/-- The error a bit-field access gives, if it gives one. -/
def accessError : Except ErrorKind Nat → Option ErrorKind
  | .ok _ => none
  | .error e => some e

theorem accessError_extractBits {n : Nat} (c : BitVec n) (start stop : Nat) :
    accessError (extractBits c start stop) = checkBounds n start stop := by
  unfold extractBits
  cases checkBounds n start stop <;> rfl

theorem accessError_writeBits {n : Nat} (c : BitVec n) (content start stop : Nat) :
    accessError (writeBits c content start stop) = checkBounds n start stop := by
  unfold writeBits
  cases checkBounds n start stop <;> rfl

theorem accessError_extractFrom (w : Container) (start stop : Nat) (s : State) :
    accessError (extractFrom w start stop s) = argumentError (.extractBits w start stop) := by
  cases w <;> exact accessError_extractBits _ _ _

theorem accessError_writeTo (w : Container) (start stop : Nat) (s : State) :
    accessError (writeTo w start stop s) = argumentError (.writeBits w start stop) := by
  cases w <;> exact accessError_writeBits _ _ _ _

theorem answerField_of_error {r : Except ErrorKind Nat} {e : ErrorKind} (s : State) (h : accessError r = some e) :
    answerField r s = raiseError e s := by
  cases r <;> cases h
  rfl

theorem answerField_of_ok {r : Except ErrorKind Nat} (s : State) (h : accessError r = none) :
    ∃ v, answerField r s = respondResult v s := by
  cases r <;> cases h
  exact ⟨_, rfl⟩

/-- A command whose argument check fails raises the error of the check and does nothing else. -/
theorem exec_of_argumentError {i : Instr} {s : State} {e : ErrorKind} (h : argumentError i = some e) :
    exec i s = .next (raiseError e s) := by
  cases i with
  | and | eor | sub | rsb | add | adc | sbc | rsc | orr | mov | bic | mvn => exact withLiteral_of_error h
  | extractBits => exact congrArg _ (answerField_of_error s ((accessError_extractFrom _ _ _ s).trans h))
  | writeBits => exact congrArg _ (answerField_of_error s ((accessError_writeTo _ _ _ s).trans h))
  | _ => cases h

/-- A command whose argument check passes completes without an error, with the valid bits of the table of R42. -/
theorem exec_of_no_argumentError {i : Instr} (s : State) (h : argumentError i = none) :
    ∃ t, exec i s = .next t ∧ t.out.err = none ∧
      (t.out.rvalid, t.out.hvalid, t.out.fvalid) = validBits s.params i := by
  cases i with
  | and | eor | sub | rsb | add | adc | sbc | rsc | orr | mov | bic | mvn =>
    exact ⟨_, withLiteral_of_ok h, rfl, rfl⟩
  | extractBits =>
    obtain ⟨v, hv⟩ := answerField_of_ok s ((accessError_extractFrom _ _ _ s).trans h)
    exact ⟨respondResult v s, congrArg Host.Outcome.next hv, rfl, rfl⟩
  | writeBits =>
    obtain ⟨v, hv⟩ := answerField_of_ok s ((accessError_writeTo _ _ _ s).trans h)
    exact ⟨respondResult v s, congrArg Host.Outcome.next hv, rfl, rfl⟩
  | mls =>
    refine ⟨_, rfl, ?_⟩
    cases hm : s.params.mlsReportsFlags <;> exact ⟨rfl, by rw [validBits, hm]; rfl⟩
  | _ => exact ⟨_, rfl, rfl, rfl⟩

/-- Settles O23: the argument check fails, and the command raises its error, or passes, and the table holds. -/
theorem validBitsFollowTheTable : Obligations.ValidBitsFollowTheTable := by
  intro i s
  have hvalid (o : OutPorts) : (o.rvalid = true ↔ o.result ≠ none) ∧ (o.hvalid = true ↔ o.resulthi ≠ none) ∧
      (o.fvalid = true ↔ o.fout ≠ none) :=
    ⟨Option.isSome_iff_ne_none, Option.isSome_iff_ne_none, Option.isSome_iff_ne_none⟩
  cases he : argumentError i with
  | some e => exact ⟨_, exec_of_argumentError he, rfl, nofun, fun _ => rfl, hvalid _⟩
  | none =>
    obtain ⟨t, ht, herr, hbits⟩ := exec_of_no_argumentError s he
    exact ⟨t, ht, herr, fun _ => hbits, fun h => absurd herr h, hvalid _⟩

/-! ## The invariant of the output ports (R42, R243, R245) -/

theorem argumentError_ne_unknownShiftType (i : Instr) : argumentError i ≠ some .unknownShiftType := by
  have hamount (amt : Nat) : checkAmount amt ≠ some .unknownShiftType := by
    unfold checkAmount
    split <;> simp
  have hbounds (w start stop : Nat) : checkBounds w start stop ≠ some .unknownShiftType := by
    unfold checkBounds
    split <;> simp
  cases i with
  | and | eor | sub | rsb | add | adc | sbc | rsc | orr | mov | bic | mvn => exact hamount _
  | extractBits | writeBits => exact hbounds _ _ _
  | _ => nofun

/-- A transaction raises an error, never the Unknown-Shift-Type error, or runs a command whose argument check passes. -/
theorem runSampled_cases {s s' : State} (h : runSampled s = .next s') :
    (∃ e, e ≠ .unknownShiftType ∧ s' = raiseError e s) ∨
    (∃ i, argumentError i = none ∧ exec i s = .next s') := by
  cases hd : decode s.inp.cmd with
  | error e =>
    rw [runSampled_error hd] at h
    cases h
    exact .inl ⟨.reservedCommand, nofun, rfl⟩
  | ok i =>
    rw [runSampled_ok hd] at h
    cases he : argumentError i with
    | none => exact .inr ⟨i, he, h⟩
    | some e =>
      rw [exec_of_argumentError he] at h
      cases h
      exact .inl ⟨e, fun hu => argumentError_ne_unknownShiftType i (hu ▸ he), rfl⟩

/-- Every command but COMMIT shows a result when it completes. -/
theorem validBits_result (p : Params) {i : Instr} (h : i ≠ .commit) : (validBits p i).1 = true := by
  cases i with
  | commit => exact absurd rfl h
  | _ => rfl

theorem wellFormed_raiseError {e : ErrorKind} (s : State) (h : e ≠ .unknownShiftType) :
    (raiseError e s).out.wellFormed = true := by
  simp [OutPorts.wellFormed, h]

theorem wellFormed_of_rvalid {o : OutPorts} (he : o.err = none) (hr : o.rvalid = true) : o.wellFormed = true := by
  simp [OutPorts.wellFormed, he, hr]

theorem wellFormed_exec {i : Instr} {s t : State} (he : argumentError i = none) (h : exec i s = .next t) :
    t.out.wellFormed = true ∧ t.out.err = none := by
  obtain ⟨u, hu, herr, hbits⟩ := exec_of_no_argumentError s he
  cases hu.symm.trans h
  refine ⟨?_, herr⟩
  by_cases hi : i = .commit
  · rw [hi, exec_commit] at h
    cases h
    rfl
  · have hresult := validBits_result s.params hi
    rw [← hbits] at hresult
    exact wellFormed_of_rvalid herr hresult

/-- Settles O24: at reset no output has a value and no error is shown. -/
theorem resetOutputsAreWellFormed : Obligations.ResetOutputsAreWellFormed :=
  fun _ => rfl

theorem errorCode_ne_three_of_wellFormed {o : OutPorts} (h : o.wellFormed = true) : errorCode o.err ≠ 3 := by
  have hcode : ∀ e : Option ErrorKind, e ≠ some .unknownShiftType → errorCode e ≠ 3
    | none, _ | some .bitRange, _ | some .shiftAmountOutOfRange, _ | some .reservedCommand, _ => by decide
    | some .unknownShiftType, he => absurd rfl he
  simp only [OutPorts.wellFormed, Bool.and_eq_true, decide_eq_true_eq] at h
  obtain ⟨-, hne⟩ := h
  exact hcode _ hne

theorem errorCode_lt_five : ∀ e : Option ErrorKind, (errorCode e).toNat < 5
  | none | some .bitRange | some .shiftAmountOutOfRange | some .unknownShiftType | some .reservedCommand => by decide

theorem runSampled_wellFormed {s s' : State} (h : runSampled s = .next s') :
    s'.out.wellFormed = true ∧ (s'.out.err ≠ none → s'.nzcv = s.nzcv) := by
  rcases runSampled_cases h with ⟨e, he, rfl⟩ | ⟨i, he, hexec⟩
  · exact ⟨wellFormed_raiseError s he, fun _ => rfl⟩
  · obtain ⟨hwf, herr⟩ := wellFormed_exec he hexec
    exact ⟨hwf, fun hne => absurd herr hne⟩

/-- Settles O25: `runSampled_wellFormed`, for a step is a transaction; the codes follow from the invariant. -/
theorem stepKeepsOutputsWellFormed : Obligations.StepKeepsOutputsWellFormed := by
  intro s s' h
  obtain ⟨t, rest, p, -, -, -, hrun⟩ := step_cases h
  obtain ⟨hwf, hnzcv⟩ := runSampled_wellFormed hrun
  exact ⟨hwf, errorCode_ne_three_of_wellFormed hwf, errorCode_lt_five _, hnzcv⟩

/-! ## A command computes on the ports it uses (R41) -/

/-- Both answers are next states that show the same outputs and the same register. -/
def showAlike (a b : Answer) : Prop :=
  ∃ t u, a = .next t ∧ b = .next u ∧ u.out = t.out ∧ u.nzcv = t.nzcv

theorem showAlike.symm {a b : Answer} : showAlike a b → showAlike b a
  | ⟨t, u, ht, hu, hout, hnzcv⟩ => ⟨u, t, hu, ht, hout.symm, hnzcv.symm⟩

theorem showAlike.trans {a b c : Answer} (hab : showAlike a b) (hbc : showAlike b c) : showAlike a c := by
  obtain ⟨t, u, ht, hu, hout, hnzcv⟩ := hab
  obtain ⟨u', v, hu', hv, hout', hnzcv'⟩ := hbc
  cases hu.symm.trans hu'
  exact ⟨t, v, ht, hv, hout'.trans hout, hnzcv'.trans hnzcv⟩

theorem showAlike.shown_eq {a b : Answer} : showAlike a b → shown a = shown b
  | ⟨t, u, ht, hu, hout, hnzcv⟩ => by simp [ht, hu, shown, hout, hnzcv]

theorem showAlike.refused_iff {a b : Answer} (r : Refusal) : showAlike a b → (a = .refused r ↔ b = .refused r)
  | ⟨t, u, ht, hu, _, _⟩ => by simp [ht, hu]

/-- The port values with every port outside `u`, and the command word, at 0. -/
def InPorts.restrict (u : PortUse) (p : InPorts) : InPorts where
  rn := if u.rn then p.rn else 0
  rm := if u.rm then p.rm else 0
  rs := if u.rs then p.rs else 0
  ra := if u.ra then p.ra else 0
  rdhi := if u.rdhi then p.rdhi else 0
  rdlo := if u.rdlo then p.rdlo else 0
  imm12 := if u.imm12 then p.imm12 else 0
  fin := if u.fin then p.fin else 0

/-- `s` with the port values `q`. -/
def State.withPorts (s : State) (q : InPorts) : State := { s with inp := q }

theorem restrict_eq_of_agreeOn {u : PortUse} {p q : InPorts} (h : agreeOn u p q) : p.restrict u = q.restrict u := by
  obtain ⟨hrn, hrm, hrs, hra, hrdhi, hrdlo, himm12, hfin⟩ := h
  have hport {n : Nat} {read : Bool} {x y : BitVec n} (h : read = true → x = y) :
      (if read then x else 0) = if read then y else 0 := ite_congr rfl h fun _ => rfl
  simp only [InPorts.restrict, hport hrn, hport hrm, hport hrs, hport hra, hport hrdhi, hport hrdlo, hport himm12,
    hport hfin]

theorem withLiteral_showAlike {type : ShiftType} {amt : Nat} {s u : State} {k : Shifted → State → State}
    (hop : literalOperand type amt u = literalOperand type amt s) (hnzcv : u.nzcv = s.nzcv)
    (hk : ∀ op2, (k op2 u).out = (k op2 s).out ∧ (k op2 u).nzcv = (k op2 s).nzcv) :
    showAlike (withLiteral type amt s k) (withLiteral type amt u k) := by
  unfold withLiteral
  cases checkAmount amt with
  | some e => exact ⟨_, _, rfl, rfl, rfl, hnzcv⟩
  | none => exact ⟨_, _, rfl, rfl, hop ▸ hk _⟩

@[simp] theorem answerField_nzcv (r : Except ErrorKind Nat) (s : State) : (answerField r s).nzcv = s.nzcv := by
  cases r <;> rfl

theorem answerField_showAlike {r r' : Except ErrorKind Nat} {s u : State} (hr : r' = r) (hnzcv : u.nzcv = s.nzcv) :
    showAlike (.next (answerField r s)) (.next (answerField r' u)) :=
  ⟨_, _, rfl, rfl, hr ▸ answerField_out_eq _ _ _, by simpa using hnzcv⟩

/-- A command shows the same with every port that it does not use at 0. -/
theorem exec_restrict (i : Instr) (s : State) :
    showAlike (exec i s) (exec i (s.withPorts (s.inp.restrict (portUse i)))) := by
  cases i with
  | and | eor | sub | rsb | add | adc | sbc | rsc | orr | mov | bic | mvn =>
    exact withLiteral_showAlike rfl rfl fun _ => ⟨rfl, rfl⟩
  | extractBits w | writeBits w => cases w <;> exact answerField_showAlike rfl rfl
  | mls =>
    refine ⟨_, _, rfl, rfl, ?_⟩
    unfold State.withPorts
    split <;> exact ⟨rfl, rfl⟩
  | _ => exact ⟨_, _, rfl, rfl, rfl, rfl⟩

/-- Port values that agree on the ports a command uses are one set of values to it. -/
theorem exec_showAlike_of_agreeOn {i : Instr} {s : State} {q : InPorts} (h : agreeOn (portUse i) s.inp q) :
    showAlike (exec i s) (exec i (s.withPorts q)) := by
  have hrestrict : showAlike (exec i (s.withPorts q)) (exec i (s.withPorts (s.inp.restrict (portUse i)))) := by
    rw [restrict_eq_of_agreeOn h]
    exact exec_restrict i (s.withPorts q)
  exact (exec_restrict i s).trans hrestrict.symm

/-! ## Transactions that drive the used ports alike (R41) -/

theorem takePort_agree {n : Nat} {read : Bool} {v v' : Option (BitVec n)} {x x' : BitVec n}
    (hv : read = true → v' = v) (h : takePort read v = some x) (h' : takePort read v' = some x') :
    read = true → x = x' := by
  rintro rfl
  rw [hv rfl] at h'
  exact Option.some.inj (h.symm.trans h')

/-- Two transactions that drive the ports in `u` alike can both be taken over, with the same values on these ports, or
neither can. -/
theorem takePorts_of_drivesAgree {u : PortUse} {t t' : Transaction} (s : State) (h : drivesAgree u t t') :
    (takePorts u t s = none ∧ takePorts u t' s = none) ∨
    ∃ p p', takePorts u t s = some p ∧ takePorts u t' s = some p' ∧ agreeOn u p p' := by
  obtain ⟨-, hrn, hrm, hrs, hra, hrdhi, hrdlo, himm12, hfin⟩ := h
  have hword {read : Bool} {d d' : WordDrive} (h : read = true → d' = d) :
      read = true → d'.sample s = d.sample s := fun hread => by rw [h hread]
  have hflags : u.fin = true → t'.fin.sample s = t.fin.sample s := fun hread => by rw [hfin hread]
  have hempty {n : Nat} {read : Bool} {v v' : Option (BitVec n)} (h : read = true → v' = v) :
      (read = true ∧ v' = none) ↔ (read = true ∧ v = none) := and_congr_right fun hread => by rw [h hread]
  have hnone : takePorts u t' s = none ↔ takePorts u t s = none := by
    simp only [takePorts_eq_none, hempty (hword hrn), hempty (hword hrm), hempty (hword hrs), hempty (hword hra),
      hempty (hword hrdhi), hempty (hword hrdlo), hempty hflags]
  cases hp : takePorts u t s with
  | none => exact .inl ⟨rfl, hnone.mpr hp⟩
  | some p =>
    obtain ⟨p', hp'⟩ := Option.ne_none_iff_exists'.mp fun h => by simp [hnone.mp h] at hp
    obtain ⟨-, i, rn, rm, rs, ra, rdhi, rdlo, fin⟩ := takePorts_eq_some hp
    obtain ⟨-, i', rn', rm', rs', ra', rdhi', rdlo', fin'⟩ := takePorts_eq_some hp'
    exact .inr ⟨p, p', rfl, hp', takePort_agree (hword hrn) rn rn', takePort_agree (hword hrm) rm rm',
      takePort_agree (hword hrs) rs rs', takePort_agree (hword hra) ra ra',
      takePort_agree (hword hrdhi) rdhi rdhi', takePort_agree (hword hrdlo) rdlo rdlo',
      fun hread => by rw [i, i', himm12 hread], takePort_agree hflags fin fin'⟩

/-- The transactions still to be presented carry no port value. -/
theorem Transaction.sample_pending_irrelevant (t : Transaction) (s : State) (ts : List Transaction) :
    t.sample { s with pending := ts } = t.sample s := by
  have hword (d : WordDrive) : d.sample { s with pending := ts } = d.sample s := by cases d <;> rfl
  have hflags : t.fin.sample { s with pending := ts } = t.fin.sample s := by cases t.fin <;> rfl
  simp only [Transaction.sample, takePorts, hword, hflags]

/-- Of two transactions of one command that drive its ports alike, both are refused for want of a value, or both run
and show the same. -/
theorem step_of_drivesAgree {s : State} {t t' : Transaction} {i : Instr} (rest : List Transaction)
    (hh : haltingError s = none) (hd : decode t.cmd = .ok i) (h : drivesAgree (portUse i) t t') :
    (step { s with pending := t :: rest } = .refused .outputHasNoValue ∧
      step { s with pending := t' :: rest } = .refused .outputHasNoValue) ∨
    showAlike (step { s with pending := t :: rest }) (step { s with pending := t' :: rest }) := by
  have hcmd : t'.cmd = t.cmd := h.1
  have hrun {t : Transaction} {p : InPorts} (hd : decode t.cmd = .ok i) (hp : t.sample s = some p) :
      step { s with pending := t :: rest } = exec i (present p rest s) :=
    step_eq_exec hh rfl ((t.sample_pending_irrelevant s _).trans hp) ((Transaction.sample_cmd hp).1 ▸ hd)
  have hd' : decode t'.cmd = .ok i := hcmd ▸ hd
  cases he : argumentError i with
  | some e =>
    obtain ⟨p, hp⟩ := Transaction.sample_of_unread (s := s) (portsRead_of_argumentError hd he)
    obtain ⟨p', hp'⟩ := Transaction.sample_of_unread (s := s) (portsRead_of_argumentError hd' he)
    rw [hrun hd hp, hrun hd' hp', exec_of_argumentError he, exec_of_argumentError he]
    exact .inr ⟨_, _, rfl, rfl, rfl, rfl⟩
  | none =>
    have hsample {t : Transaction} (hd : decode t.cmd = .ok i) : t.sample s = takePorts (portUse i) t s := by
      rw [Transaction.sample, portsRead_of_ok hd he]
    rcases takePorts_of_drivesAgree s h with ⟨hp, hp'⟩ | ⟨p, p', hp, hp', hagree⟩
    · rw [← hsample hd] at hp
      rw [← hsample hd'] at hp'
      exact .inl ⟨step_of_sample_none hh rfl ((t.sample_pending_irrelevant s _).trans hp),
        step_of_sample_none hh rfl ((t'.sample_pending_irrelevant s _).trans hp')⟩
    · rw [hrun hd ((hsample hd).trans hp), hrun hd' ((hsample hd').trans hp')]
      exact .inr (exec_showAlike_of_agreeOn (s := present p rest s) hagree)

/-- Settles O22: a command on its ports is `exec_showAlike_of_agreeOn`; a step is `step_of_drivesAgree`, unless the
caller has halted, which no transaction changes. -/
theorem unusedPortsAreIgnored : Obligations.UnusedPortsAreIgnored := by
  refine ⟨fun i s q h => exec_showAlike_of_agreeOn h, fun s t t' rest i hd h => ?_⟩
  cases hh : haltingError s with
  | some e =>
    have hfault (t : Transaction) : step { s with pending := t :: rest } = .fault (.haltedByCaller e) :=
      step_of_haltingError hh
    simp [hfault]
  | none =>
    rcases step_of_drivesAgree rest hh hd h with ⟨hr, hr'⟩ | halike
    · rw [hr, hr']
      exact ⟨rfl, Iff.rfl⟩
    · exact ⟨halike.shown_eq, halike.refused_iff _⟩

end Sys2Proof.Machine
end

section
/-! SUPPORT. The decoder and the encoder against each other (spec/30_encoding.md R60 to R76, R78): for each format, the
words that it decodes, and what they decode to. -/

namespace Sys2Proof

open Sys2Proof.Machine Sys2Proof.Claims

/-! ## The fields of a word (R60) -/

theorem toNat_grpOf (c : Cmd) : (grpOf c).toNat = c.toNat / 2 ^ 20 := by
  rw [grpOf, BitVec.extractLsb'_toNat, Nat.shiftRight_eq_div_pow]
  omega

theorem toNat_opOf (c : Cmd) : (opOf c).toNat = c.toNat / 2 ^ 16 % 16 := by
  rw [opOf, BitVec.extractLsb'_toNat, Nat.shiftRight_eq_div_pow]

theorem toNat_modOf (c : Cmd) : (modOf c).toNat = c.toNat / 2 ^ 12 % 16 := by
  rw [modOf, BitVec.extractLsb'_toNat, Nat.shiftRight_eq_div_pow]

theorem toNat_argOf (c : Cmd) : (argOf c).toNat = c.toNat % 2 ^ 12 := by
  rw [argOf, BitVec.extractLsb'_toNat, Nat.shiftRight_zero]

theorem eq_cmdOf_iff {c : Cmd} {g o m : BitVec 4} {a : BitVec 12} :
    c = cmdOf g o m a ↔ grpOf c = g ∧ opOf c = o ∧ modOf c = m ∧ argOf c = a := by
  constructor
  · rintro rfl
    simp
  · rintro ⟨rfl, rfl, rfl, rfl⟩
    exact (cmdOf_fields c).symm

/-! ## The small decoders (R68, R69, R74, R75) -/

theorem decodeShiftType_eq_some {mod : BitVec 4} {type : ShiftType} :
    decodeShiftType mod = some type ↔ mod = shiftCode type := by
  revert mod
  cases type <;> decide

theorem exists_decodeShiftType {mod : BitVec 4} : (∃ type, decodeShiftType mod = some type) ↔ mod.toNat < 4 := by
  rw [← Option.ne_none_iff_exists']
  revert mod
  decide

theorem decodeContainer_eq_some {mod : BitVec 4} {w : Container} :
    decodeContainer mod = some w ↔ mod = containerCode w := by
  revert mod
  cases w <;> decide

theorem exists_decodeContainer {mod : BitVec 4} : (∃ w, decodeContainer mod = some w) ↔ mod.toNat < 2 := by
  rw [← Option.ne_none_iff_exists']
  revert mod
  decide

theorem exists_dprCommand {op : BitVec 4} :
    (∃ command, dprCommand op = some command) ↔ ¬ (8 ≤ op.toNat ∧ op.toNat ≤ 11) := by
  rw [← Option.ne_none_iff_exists']
  revert op
  decide

theorem exists_dprsCommand {op : BitVec 4} :
    (∃ command, dprsCommand op = some command) ↔ ¬ (8 ≤ op.toNat ∧ op.toNat ≤ 11) := by
  rw [← Option.ne_none_iff_exists']
  revert op
  decide

theorem encode_dprCommand {op : BitVec 4} {command : ShiftType → Nat → Instr} (h : dprCommand op = some command)
    (type : ShiftType) (amt : Nat) :
    encode (command type amt) = encodeDpr op type amt ∧ (command type amt).wellFormed = amountFits amt := by
  unfold dprCommand at h
  split at h <;> cases h
  all_goals
    next hop => exact ⟨congrArg (encodeDpr · type amt) (BitVec.eq_of_toNat_eq hop.symm), rfl⟩

theorem encode_dprsCommand {op : BitVec 4} {command : ShiftType → Instr} (h : dprsCommand op = some command)
    (type : ShiftType) :
    encode (command type) = encodeDprs op type ∧ (command type).wellFormed = true := by
  unfold dprsCommand at h
  split at h <;> cases h
  all_goals
    next hop => exact ⟨congrArg (encodeDprs · type) (BitVec.eq_of_toNat_eq hop.symm), rfl⟩

theorem encode_fixedCommand :
    ∀ grp op, ∀ i ∈ fixedCommand grp op, encode i = encodeFixed grp op ∧ i.wellFormed = true := by
  decide

/-! ## The decoder, format by format (R61) -/

theorem grp_cases : ∀ g : BitVec 4, g = 0 ∨ g = 1 ∨ (2 ≤ g.toNat ∧ g.toNat ≤ 5) ∨ g = 6 ∨ 7 ≤ g.toNat := by
  decide

theorem decode_of_dpr {c : Cmd} (h : grpOf c = 0) : decode c = decodeDpr (opOf c) (modOf c) (argOf c) := by
  simp [decode, h]

theorem decode_of_dprs {c : Cmd} (h : grpOf c = 1) : decode c = decodeDprs (opOf c) (modOf c) (argOf c) := by
  simp [decode, h]

theorem decode_of_fixed {c : Cmd} (h : 2 ≤ (grpOf c).toNat ∧ (grpOf c).toNat ≤ 5) :
    decode c = decodeFixed (grpOf c) (opOf c) (modOf c) (argOf c) := by
  have hgrp : (grpOf c).toNat = 2 ∨ (grpOf c).toNat = 3 ∨ (grpOf c).toNat = 4 ∨ (grpOf c).toNat = 5 := by omega
  rcases hgrp with hgrp | hgrp | hgrp | hgrp <;> simp [decode, hgrp]

theorem decode_of_bits {c : Cmd} (h : grpOf c = 6) : decode c = decodeBits (opOf c) (modOf c) (argOf c) := by
  simp [decode, h]

theorem decode_of_reservedGroup {c : Cmd} (h : 7 ≤ (grpOf c).toNat) : decode c = .error .reservedGroup := by
  unfold decode
  split
  case h_8 => rfl
  all_goals omega

theorem ite_ok_eq_ok {p : Prop} [Decidable p] {i j : Instr} {e : DecodeError} :
    (if p then Except.ok i else .error e) = Except.ok j ↔ p ∧ i = j := by
  split <;> simp [*]

theorem decodeDpr_eq_ok {op mod : BitVec 4} {arg : BitVec 12} {i : Instr} :
    decodeDpr op mod arg = .ok i ↔ ∃ command type, dprCommand op = some command ∧ decodeShiftType mod = some type ∧
      arg.toNat < 256 ∧ command type arg.toNat = i := by
  unfold decodeDpr
  cases dprCommand op with
  | none => simp
  | some command => cases decodeShiftType mod <;> simp [ite_ok_eq_ok]

theorem decodeDprs_eq_ok {op mod : BitVec 4} {arg : BitVec 12} {i : Instr} :
    decodeDprs op mod arg = .ok i ↔ ∃ command type, dprsCommand op = some command ∧ decodeShiftType mod = some type ∧
      arg = 0 ∧ command type = i := by
  unfold decodeDprs
  cases dprsCommand op with
  | none => simp
  | some command => cases decodeShiftType mod <;> simp [ite_ok_eq_ok]

theorem decodeFixed_eq_ok {grp op mod : BitVec 4} {arg : BitVec 12} {i : Instr} :
    decodeFixed grp op mod arg = .ok i ↔ fixedCommand grp op = some i ∧ mod = 0 ∧ arg = 0 := by
  unfold decodeFixed
  cases fixedCommand grp op with
  | none => simp
  | some j => simp [ite_ok_eq_ok, and_comm]

theorem op_cases : ∀ op : BitVec 4, op = 0 ∨ op = 1 ∨ op = 2 ∨ 3 ≤ op.toNat := by
  decide

theorem decodeBits_of_reservedOp {op mod : BitVec 4} {arg : BitVec 12} (h : 3 ≤ op.toNat) :
    decodeBits op mod arg = .error .reservedOp := by
  unfold decodeBits
  split
  case h_7 => rfl
  all_goals omega

theorem decodeBits_eq_ok {op mod : BitVec 4} {arg : BitVec 12} {i : Instr} :
    decodeBits op mod arg = .ok i ↔ ∃ w, decodeContainer mod = some w ∧
      ((op = 0 ∧ .extractBits w (arg.extractLsb' 0 6).toNat (arg.extractLsb' 6 6).toNat = i) ∨
       (op = 1 ∧ .writeBits w (arg.extractLsb' 0 6).toNat (arg.extractLsb' 6 6).toNat = i) ∨
       (op = 2 ∧ w = .word ∧ arg = 0 ∧ .countBits = i)) := by
  rcases op_cases op with rfl | rfl | rfl | hop
  · cases hw : decodeContainer mod <;> simp [decodeBits, hw]
  · cases hw : decodeContainer mod <;> simp [decodeBits, hw]
  · match hw : decodeContainer mod with
    | none | some .imm12 => simp [decodeBits, hw]
    | some .word => simp [decodeBits, hw, ite_ok_eq_ok]
  · have hne (n : BitVec 4) (hn : n.toNat < 3) : op ≠ n := fun h => Nat.not_lt.mpr hop (h ▸ hn)
    simp only [decodeBits_of_reservedOp hop, hne 0 (by decide), hne 1 (by decide), hne 2 (by decide), false_and, or_self,
      and_false, exists_false, reduceCtorEq]

/-! ## Decoding inverts encoding (R60 to R69) -/

theorem toNat_ofNat_of_amountFits {amt : Nat} (h : amountFits amt = true) : (BitVec.ofNat 12 amt).toNat = amt := by
  have hlt : amt < 256 := of_decide_eq_true h
  exact Nat.mod_eq_of_lt (by omega)

theorem decode_encodeDpr {op : BitVec 4} {command : ShiftType → Nat → Instr} {amt : Nat} (type : ShiftType)
    (hop : dprCommand op = some command) (hamt : amountFits amt = true) :
    decode (encodeDpr op type amt) = .ok (command type amt) := by
  rw [encodeDpr, decode_of_dpr (grpOf_cmdOf ..), decodeDpr_eq_ok]
  simp only [opOf_cmdOf, modOf_cmdOf, argOf_cmdOf, toNat_ofNat_of_amountFits hamt]
  exact ⟨command, type, hop, decodeShiftType_shiftCode type, of_decide_eq_true hamt, rfl⟩

theorem decode_encodeDprs {op : BitVec 4} {command : ShiftType → Instr} (type : ShiftType)
    (hop : dprsCommand op = some command) : decode (encodeDprs op type) = .ok (command type) := by
  rw [encodeDprs, decode_of_dprs (grpOf_cmdOf ..), decodeDprs_eq_ok]
  exact ⟨command, type, by simpa using hop, by simp, by simp, rfl⟩

theorem decode_encodeFixed {grp op : BitVec 4} {i : Instr} (hgrp : 2 ≤ grp.toNat ∧ grp.toNat ≤ 5)
    (hi : fixedCommand grp op = some i) : decode (encodeFixed grp op) = .ok i := by
  rw [encodeFixed, decode_of_fixed (by simpa using hgrp), decodeFixed_eq_ok]
  simpa using hi

theorem decode_encodeBits {op : BitVec 4} {w : Container} {start stop : Nat} {i : Instr}
    (hfit : boundsFit start stop = true)
    (hi : (op = 0 ∧ .extractBits w start stop = i) ∨ (op = 1 ∧ .writeBits w start stop = i)) :
    decode (encodeBits op w start stop) = .ok i := by
  simp only [boundsFit, Bool.and_eq_true, decide_eq_true_eq] at hfit
  obtain ⟨hstart, hstop⟩ := hfit
  rw [encodeBits, decode_of_bits (grpOf_cmdOf ..), decodeBits_eq_ok]
  simp only [opOf_cmdOf, modOf_cmdOf, argOf_cmdOf, argument_start _ _ hstart, argument_stop _ _ hstop]
  exact ⟨w, by simp, hi.imp_right .inl⟩

/-- Settles O1: each command is decoded by the format that encodes it. -/
theorem decodeInvertsEncode : Obligations.DecodeInvertsEncode := by
  intro i h
  cases i with
  | and type | eor type | sub type | rsb type | add type | adc type
  | sbc type | rsc type | orr type | mov type | bic type | mvn type => exact decode_encodeDpr type rfl h
  | andRs type | eorRs type | subRs type | rsbRs type | addRs type | adcRs type
  | sbcRs type | rscRs type | orrRs type | movRs type | bicRs type | mvnRs type => exact decode_encodeDprs type rfl
  | extractBits => exact decode_encodeBits h (.inl ⟨rfl, rfl⟩)
  | writeBits => exact decode_encodeBits h (.inr ⟨rfl, rfl⟩)
  | countBits => decide
  | _ => exact decode_encodeFixed (by decide) rfl

/-! ## Encoding inverts decoding (R76) -/

theorem ofNat_bounds (arg : BitVec 12) :
    BitVec.ofNat 6 (arg.extractLsb' 6 6).toNat ++ BitVec.ofNat 6 (arg.extractLsb' 0 6).toNat = arg := by
  rw [BitVec.ofNat_toNat, BitVec.ofNat_toNat, BitVec.setWidth_eq, BitVec.setWidth_eq,
    BitVec.extractLsb'_append_extractLsb'_eq_extractLsb' (by omega)]
  simp

theorem encode_of_decodeDpr {c : Cmd} {i : Instr} (hgrp : grpOf c = 0)
    (h : decodeDpr (opOf c) (modOf c) (argOf c) = .ok i) : i.wellFormed = true ∧ encode i = c := by
  obtain ⟨command, type, hop, hmod, harg, rfl⟩ := decodeDpr_eq_ok.mp h
  obtain ⟨henc, hwf⟩ := encode_dprCommand hop type (argOf c).toNat
  refine ⟨hwf.trans (decide_eq_true harg), ?_⟩
  calc encode (command type (argOf c).toNat) = encodeDpr (opOf c) type (argOf c).toNat := henc
    _ = cmdOf (grpOf c) (opOf c) (modOf c) (argOf c) := by
      rw [encodeDpr, hgrp, decodeShiftType_eq_some.mp hmod, BitVec.ofNat_toNat, BitVec.setWidth_eq]
    _ = c := cmdOf_fields c

theorem encode_of_decodeDprs {c : Cmd} {i : Instr} (hgrp : grpOf c = 1)
    (h : decodeDprs (opOf c) (modOf c) (argOf c) = .ok i) : i.wellFormed = true ∧ encode i = c := by
  obtain ⟨command, type, hop, hmod, harg, rfl⟩ := decodeDprs_eq_ok.mp h
  obtain ⟨henc, hwf⟩ := encode_dprsCommand hop type
  refine ⟨hwf, ?_⟩
  calc encode (command type) = encodeDprs (opOf c) type := henc
    _ = cmdOf (grpOf c) (opOf c) (modOf c) (argOf c) := by
      rw [encodeDprs, hgrp, decodeShiftType_eq_some.mp hmod, harg]
    _ = c := cmdOf_fields c

theorem encode_of_decodeFixed {c : Cmd} {i : Instr}
    (h : decodeFixed (grpOf c) (opOf c) (modOf c) (argOf c) = .ok i) : i.wellFormed = true ∧ encode i = c := by
  obtain ⟨hi, hmod, harg⟩ := decodeFixed_eq_ok.mp h
  obtain ⟨henc, hwf⟩ := encode_fixedCommand _ _ _ hi
  refine ⟨hwf, ?_⟩
  calc encode i = encodeFixed (grpOf c) (opOf c) := henc
    _ = cmdOf (grpOf c) (opOf c) (modOf c) (argOf c) := by rw [encodeFixed, hmod, harg]
    _ = c := cmdOf_fields c

theorem encodeBits_fields {c : Cmd} {op : BitVec 4} {w : Container} (hgrp : grpOf c = 6) (hop : opOf c = op)
    (hmod : decodeContainer (modOf c) = some w) :
    encodeBits op w ((argOf c).extractLsb' 0 6).toNat ((argOf c).extractLsb' 6 6).toNat = c := by
  rw [encodeBits, ofNat_bounds, ← hgrp, ← hop, ← decodeContainer_eq_some.mp hmod, cmdOf_fields]

theorem boundsFit_toNat (start stop : BitVec 6) : boundsFit start.toNat stop.toNat = true := by
  simp [boundsFit, start.isLt, stop.isLt]

theorem encode_of_decodeBits {c : Cmd} {i : Instr} (hgrp : grpOf c = 6)
    (h : decodeBits (opOf c) (modOf c) (argOf c) = .ok i) : i.wellFormed = true ∧ encode i = c := by
  obtain ⟨w, hmod, ⟨hop, rfl⟩ | ⟨hop, rfl⟩ | ⟨hop, rfl, harg, rfl⟩⟩ := decodeBits_eq_ok.mp h
  · exact ⟨boundsFit_toNat _ _, encodeBits_fields hgrp hop hmod⟩
  · exact ⟨boundsFit_toNat _ _, encodeBits_fields hgrp hop hmod⟩
  · exact ⟨rfl, (eq_cmdOf_iff.mpr ⟨hgrp, hop, decodeContainer_eq_some.mp hmod, harg⟩).symm⟩

/-- Settles O2, format by format. -/
theorem encodeInvertsDecode : Obligations.EncodeInvertsDecode := by
  intro c i h
  rcases grp_cases (grpOf c) with hgrp | hgrp | hgrp | hgrp | hgrp
  · exact encode_of_decodeDpr hgrp (decode_of_dpr hgrp ▸ h)
  · exact encode_of_decodeDprs hgrp (decode_of_dprs hgrp ▸ h)
  · exact encode_of_decodeFixed (decode_of_fixed hgrp ▸ h)
  · exact encode_of_decodeBits hgrp (decode_of_bits hgrp ▸ h)
  · simp [decode_of_reservedGroup hgrp] at h

/-! ## The words that decode are those R78 does not list -/

theorem exists_decodeDpr {op mod : BitVec 4} {arg : BitVec 12} :
    (∃ i, decodeDpr op mod arg = .ok i) ↔
      ¬ (8 ≤ op.toNat ∧ op.toNat ≤ 11) ∧ mod.toNat < 4 ∧ arg.toNat < 256 := by
  rw [← exists_dprCommand, ← exists_decodeShiftType]
  simp [decodeDpr_eq_ok]

theorem exists_decodeDprs {op mod : BitVec 4} {arg : BitVec 12} :
    (∃ i, decodeDprs op mod arg = .ok i) ↔
      ¬ (8 ≤ op.toNat ∧ op.toNat ≤ 11) ∧ mod.toNat < 4 ∧ arg.toNat = 0 := by
  rw [← exists_dprsCommand, ← exists_decodeShiftType]
  simp [decodeDprs_eq_ok, ← BitVec.toNat_inj]

theorem exists_fixedCommand : ∀ {grp op : BitVec 4}, 2 ≤ grp.toNat ∧ grp.toNat ≤ 5 →
    ((∃ i, fixedCommand grp op = some i) ↔
      ¬ ((grp.toNat = 2 ∧ 8 ≤ op.toNat ∧ op.toNat ≤ 11) ∨ (grp.toNat = 3 ∧ op.toNat ≠ 4 ∧ op.toNat ≠ 2) ∨
        (grp.toNat = 4 ∧ 8 ≤ op.toNat) ∨ (grp.toNat = 5 ∧ op.toNat ≠ 0))) := by
  simp only [← Option.ne_none_iff_exists']
  decide

theorem exists_decodeFixed {grp op mod : BitVec 4} {arg : BitVec 12} :
    (∃ i, decodeFixed grp op mod arg = .ok i) ↔
      (∃ i, fixedCommand grp op = some i) ∧ mod.toNat = 0 ∧ arg.toNat = 0 := by
  simp [decodeFixed_eq_ok, ← BitVec.toNat_inj]

theorem exists_decodeBits {op mod : BitVec 4} {arg : BitVec 12} :
    (∃ i, decodeBits op mod arg = .ok i) ↔
      (op.toNat < 2 ∧ mod.toNat < 2) ∨ (op.toNat = 2 ∧ mod.toNat = 0 ∧ arg.toNat = 0) := by
  have hword : decodeContainer mod = some .word ↔ mod.toNat = 0 := decodeContainer_eq_some.trans BitVec.toNat_inj.symm
  have hop : op.toNat < 2 ↔ op = 0 ∨ op = 1 := by
    revert op
    decide
  have hop' : op.toNat = 2 ↔ op = 2 := BitVec.toNat_inj (y := 2#4)
  have harg : arg.toNat = 0 ↔ arg = 0 := BitVec.toNat_inj (y := 0#12)
  rw [← exists_decodeContainer (mod := mod), ← hword, hop, hop', harg]
  simp only [decodeBits_eq_ok]
  constructor
  · rintro ⟨i, w, hw, ⟨hop, -⟩ | ⟨hop, -⟩ | ⟨hop, rfl, harg, -⟩⟩
    · exact .inl ⟨.inl hop, w, hw⟩
    · exact .inl ⟨.inr hop, w, hw⟩
    · exact .inr ⟨hop, hw, harg⟩
  · rintro (⟨hop | hop, w, hw⟩ | ⟨hop, hw, harg⟩)
    · exact ⟨_, w, hw, .inl ⟨hop, rfl⟩⟩
    · exact ⟨_, w, hw, .inr (.inl ⟨hop, rfl⟩)⟩
    · exact ⟨_, _, hw, .inr (.inr ⟨hop, rfl, harg, rfl⟩)⟩

theorem exists_decode_iff {c : Cmd} : (∃ i, decode c = .ok i) ↔ ¬ listedReserved c := by
  unfold listedReserved
  simp only [← toNat_grpOf, ← toNat_opOf, ← toNat_modOf, ← toNat_argOf]
  rcases grp_cases (grpOf c) with hgrp | hgrp | hgrp | hgrp | hgrp
  · have hnum : (grpOf c).toNat = 0 := congrArg BitVec.toNat hgrp
    rw [decode_of_dpr hgrp, exists_decodeDpr]
    grind
  · have hnum : (grpOf c).toNat = 1 := congrArg BitVec.toNat hgrp
    rw [decode_of_dprs hgrp, exists_decodeDprs]
    grind
  · rw [decode_of_fixed hgrp, exists_decodeFixed, exists_fixedCommand hgrp]
    grind
  · have hnum : (grpOf c).toNat = 6 := congrArg BitVec.toNat hgrp
    rw [decode_of_bits hgrp, exists_decodeBits]
    grind
  · simp [decode_of_reservedGroup hgrp, hgrp]

theorem exists_decode_error_iff {c : Cmd} : (∃ e, decode c = .error e) ↔ listedReserved c := by
  rw [← not_iff_not, ← exists_decode_iff]
  cases decode c <;> simp

/-- Settles O4: a word decodes exactly when it is not listed, and a transaction with a listed one raises the error. -/
theorem reservedWordsAreTheListedOnes : Obligations.ReservedWordsAreTheListedOnes := by
  intro s
  refine ⟨exists_decode_error_iff, fun h => ?_⟩
  obtain ⟨e, he⟩ := exists_decode_error_iff.mpr h
  exact runSampled_error he

end Sys2Proof
end

section
/-! SUPPORT. The decoder against the opcode table (spec/30_encoding.md R76, R77): what a mask keeps of a word, and the one
row that selects the word of a command. -/

namespace Sys2Proof

open Sys2Proof.Machine

/-! ## Words under the masks of the table -/

@[simp] theorem grpOf_and (c d : Cmd) : grpOf (c &&& d) = grpOf c &&& grpOf d := BitVec.extractLsb'_and
@[simp] theorem opOf_and (c d : Cmd) : opOf (c &&& d) = opOf c &&& opOf d := BitVec.extractLsb'_and
@[simp] theorem modOf_and (c d : Cmd) : modOf (c &&& d) = modOf c &&& modOf d := BitVec.extractLsb'_and
@[simp] theorem argOf_and (c d : Cmd) : argOf (c &&& d) = argOf c &&& argOf d := BitVec.extractLsb'_and

/-- The bits from `n` up are all 0 exactly in the numbers below `2 ^ n`. -/
theorem and_highBits_eq_zero {w : Nat} {a : BitVec w} {n : Nat} :
    a &&& BitVec.allOnes w <<< n = 0 ↔ a.toNat < 2 ^ n := by
  have hlt : a.toNat / 2 ^ n * 2 ^ n < 2 ^ w := (Nat.div_mul_le_self _ _).trans_lt a.isLt
  rw [← BitVec.shiftLeft_ushiftRight, ← BitVec.toNat_inj, BitVec.toNat_shiftLeft, BitVec.toNat_ushiftRight,
    Nat.shiftLeft_eq, Nat.shiftRight_eq_div_pow, Nat.mod_eq_of_lt hlt]
  simp [Nat.div_eq_zero_iff]

/-- The bits that format DPR fixes: all but `type` and `amt` (R62). -/
def dprMask : Cmd := cmdOf 15 15 12 0xF00

/-- The bits that format DPRS fixes: all but `type` (R63). -/
def dprsMask : Cmd := cmdOf 15 15 12 0xFFF

/-- The bits that format BITS fixes: all but `w`, `end` and `start` (R68). -/
def bitsMask : Cmd := cmdOf 15 15 14 0

/-- A mask that holds `grp` and `op` whole, against a pattern that is 0 in `mod` and `arg`. -/
theorem and_cmdOf_eq_cmdOf {c : Cmd} {grp op mod : BitVec 4} {arg : BitVec 12} :
    c &&& cmdOf 15 15 mod arg = cmdOf grp op 0 0 ↔
      grpOf c = grp ∧ opOf c = op ∧ modOf c &&& mod = 0 ∧ argOf c &&& arg = 0 := by
  have hall (x : BitVec 4) : x &&& 15 = x := BitVec.and_allOnes
  simp only [eq_cmdOf_iff, grpOf_and, opOf_and, modOf_and, argOf_and, grpOf_cmdOf, opOf_cmdOf, modOf_cmdOf, argOf_cmdOf,
    hall]

theorem and_dprMask {c : Cmd} {op : BitVec 4} :
    c &&& dprMask = cmdOf 0 op 0 0 ↔ grpOf c = 0 ∧ opOf c = op ∧ (modOf c).toNat < 4 ∧ (argOf c).toNat < 256 := by
  have hmod : modOf c &&& 12 = 0 ↔ (modOf c).toNat < 4 := and_highBits_eq_zero (n := 2)
  have harg : argOf c &&& 0xF00 = 0 ↔ (argOf c).toNat < 256 := and_highBits_eq_zero (n := 8)
  rw [dprMask, and_cmdOf_eq_cmdOf, hmod, harg]

theorem and_dprsMask {c : Cmd} {op : BitVec 4} :
    c &&& dprsMask = cmdOf 1 op 0 0 ↔ grpOf c = 1 ∧ opOf c = op ∧ (modOf c).toNat < 4 ∧ (argOf c).toNat < 1 := by
  have hmod : modOf c &&& 12 = 0 ↔ (modOf c).toNat < 4 := and_highBits_eq_zero (n := 2)
  have harg : argOf c &&& 0xFFF = 0 ↔ (argOf c).toNat < 1 := and_highBits_eq_zero (n := 0)
  rw [dprsMask, and_cmdOf_eq_cmdOf, hmod, harg]

theorem and_bitsMask {c : Cmd} {op : BitVec 4} :
    c &&& bitsMask = cmdOf 6 op 0 0 ↔ grpOf c = 6 ∧ opOf c = op ∧ (modOf c).toNat < 2 := by
  have hmod : modOf c &&& 14 = 0 ↔ (modOf c).toNat < 2 := and_highBits_eq_zero (n := 1)
  have harg : argOf c &&& 0 = 0 := BitVec.and_zero
  rw [bitsMask, and_cmdOf_eq_cmdOf, hmod, and_iff_left harg]

/-! ## A word that a row selects decodes, and no other row selects it -/

/-- Each row is of one of four kinds: it fixes what a format of DPR, DPRS or BITS fixes, with an `op` of that format, or
it fixes the whole word, which decodes. -/
theorem row_kinds : ∀ r ∈ opcodeTable,
    (r.mask = dprMask ∧ ∃ op, dprCommand op ≠ none ∧ r.pattern = cmdOf 0 op 0 0) ∨
    (r.mask = dprsMask ∧ ∃ op, dprsCommand op ≠ none ∧ r.pattern = cmdOf 1 op 0 0) ∨
    (r.mask = bitsMask ∧ ∃ op : BitVec 4, op.toNat < 2 ∧ r.pattern = cmdOf 6 op 0 0) ∨
    (r.mask = BitVec.allOnes 24 ∧ (decode r.pattern).isOk = true) := by
  decide

theorem exists_decode_of_row {c : Cmd} {r : Row} (hr : r ∈ opcodeTable) (hc : c &&& r.mask = r.pattern) :
    ∃ i, decode c = .ok i := by
  rcases row_kinds r hr with ⟨hmask, op, hop, hpattern⟩ | ⟨hmask, op, hop, hpattern⟩ | ⟨hmask, op, hop, hpattern⟩ |
    ⟨hmask, hok⟩
  · rw [hmask, hpattern, and_dprMask] at hc
    obtain ⟨hgrp, rfl, hmod, harg⟩ := hc
    rw [decode_of_dpr hgrp, exists_decodeDpr]
    exact ⟨exists_dprCommand.mp (Option.ne_none_iff_exists'.mp hop), hmod, harg⟩
  · rw [hmask, hpattern, and_dprsMask] at hc
    obtain ⟨hgrp, rfl, hmod, harg⟩ := hc
    rw [decode_of_dprs hgrp, exists_decodeDprs]
    exact ⟨exists_dprsCommand.mp (Option.ne_none_iff_exists'.mp hop), hmod, Nat.lt_one_iff.mp harg⟩
  · rw [hmask, hpattern, and_bitsMask] at hc
    obtain ⟨hgrp, rfl, hmod⟩ := hc
    rw [decode_of_bits hgrp, exists_decodeBits]
    exact .inl ⟨hop, hmod⟩
  · rw [hmask, BitVec.and_allOnes] at hc
    rw [hc]
    cases hd : decode r.pattern with
    | ok i => exact ⟨i, rfl⟩
    | error e => simp [hd, Except.isOk, Except.toBool] at hok

theorem grp_op_of_row {c : Cmd} {r : Row} (hr : r ∈ opcodeTable) (hc : c &&& r.mask = r.pattern) :
    (grpOf r.pattern, opOf r.pattern) = (grpOf c, opOf c) := by
  have hmask : ∀ r ∈ opcodeTable, grpOf r.mask = BitVec.allOnes 4 ∧ opOf r.mask = BitVec.allOnes 4 := by decide
  obtain ⟨hgrp, hop⟩ := hmask r hr
  rw [← hc, grpOf_and, opOf_and, hgrp, hop, BitVec.and_allOnes, BitVec.and_allOnes]

theorem row_unique {c : Cmd} {r r' : Row} (hr : r ∈ opcodeTable) (hc : c &&& r.mask = r.pattern)
    (hr' : r' ∈ opcodeTable) (hc' : c &&& r'.mask = r'.pattern) : r' = r := by
  have hnodup : (opcodeTable.map fun r => (grpOf r.pattern, opOf r.pattern)).Nodup := by decide
  exact List.inj_on_of_nodup_map hnodup hr' hr ((grp_op_of_row hr' hc').trans (grp_op_of_row hr hc).symm)

/-! ## The row of a command -/

/-- The bits of its word that a command fixes whatever its operands. -/
def Instr.mask : Instr → Cmd
  | .and _ _ | .eor _ _ | .sub _ _ | .rsb _ _ | .add _ _ | .adc _ _
  | .sbc _ _ | .rsc _ _ | .orr _ _ | .mov _ _ | .bic _ _ | .mvn _ _ => dprMask
  | .andRs _ | .eorRs _ | .subRs _ | .rsbRs _ | .addRs _ | .adcRs _
  | .sbcRs _ | .rscRs _ | .orrRs _ | .movRs _ | .bicRs _ | .mvnRs _ => dprsMask
  | .extractBits _ _ _ | .writeBits _ _ _ => bitsMask
  | _ => BitVec.allOnes 24

/-- The row that the encoding of a command selects. -/
def Instr.row (i : Instr) : Row := ⟨i.mnemonic, encode i &&& i.mask, i.mask⟩

theorem toNat_shiftCode_lt (type : ShiftType) : (shiftCode type).toNat < 4 := by
  cases type <;> decide

theorem toNat_containerCode_lt (w : Container) : (containerCode w).toNat < 2 := by
  cases w <;> decide

theorem encodeDpr_and_mask {amt : Nat} (op : BitVec 4) (type : ShiftType) (h : amountFits amt = true) :
    encodeDpr op type amt &&& dprMask = cmdOf 0 op 0 0 := by
  rw [and_dprMask, encodeDpr, grpOf_cmdOf, opOf_cmdOf, modOf_cmdOf, argOf_cmdOf, toNat_ofNat_of_amountFits h]
  exact ⟨rfl, rfl, toNat_shiftCode_lt type, of_decide_eq_true h⟩

theorem encodeDprs_and_mask (op : BitVec 4) (type : ShiftType) :
    encodeDprs op type &&& dprsMask = cmdOf 1 op 0 0 := by
  rw [and_dprsMask, encodeDprs, grpOf_cmdOf, opOf_cmdOf, modOf_cmdOf, argOf_cmdOf]
  exact ⟨rfl, rfl, toNat_shiftCode_lt type, Nat.one_pos⟩

theorem encodeBits_and_mask (op : BitVec 4) (w : Container) (start stop : Nat) :
    encodeBits op w start stop &&& bitsMask = cmdOf 6 op 0 0 := by
  rw [and_bitsMask, encodeBits, grpOf_cmdOf, opOf_cmdOf, modOf_cmdOf]
  exact ⟨rfl, rfl, toNat_containerCode_lt w⟩

theorem Instr.row_mem {i : Instr} (h : i.wellFormed = true) : i.row ∈ opcodeTable := by
  cases i with
  | and | eor | sub | rsb | add | adc | sbc | rsc | orr | mov | bic | mvn =>
    simp only [Instr.row, Instr.mnemonic, encode, Instr.mask, encodeDpr_and_mask _ _ h]
    decide
  | andRs | eorRs | subRs | rsbRs | addRs | adcRs | sbcRs | rscRs | orrRs | movRs | bicRs | mvnRs =>
    simp only [Instr.row, Instr.mnemonic, encode, Instr.mask, encodeDprs_and_mask]
    decide
  | extractBits | writeBits =>
    simp only [Instr.row, Instr.mnemonic, encode, Instr.mask, encodeBits_and_mask]
    decide
  | _ => decide

/-- Settles O3: the row of a command that decodes is `Instr.row`, rows that select one word are one row, and a word that
some row selects decodes. -/
theorem decoderFollowsOpcodeTable : Obligations.DecoderFollowsOpcodeTable := by
  refine fun c => ⟨fun i h => ?_, fun e h => ⟨fun r hr hc => ?_, ?_⟩⟩
  · obtain ⟨hwf, rfl⟩ := encodeInvertsDecode c i h
    exact ⟨i.row, Instr.row_mem hwf, rfl, rfl, fun r' hr' hc' => row_unique (Instr.row_mem hwf) rfl hr' hc'⟩
  · obtain ⟨i, hi⟩ := exists_decode_of_row hr hc
    cases hi.symm.trans h
  · rintro s rfl
    exact runSampled_error h

end Sys2Proof
end

section
/-! SUPPORT. The bit-field accessors (spec/40_bitfield.md R90 to R96): the shared bounds check, the field read and the
field replaced as numbers, their bits, and what one says of the other. -/

namespace Sys2Proof.Machine

/-! ## The shared bounds check (R91) -/

theorem accessError_eq_some {r : Except ErrorKind Nat} {e : ErrorKind} : accessError r = some e ↔ r = .error e := by
  cases r <;> simp [accessError]

theorem checkBounds_eq_bitRange_iff {w start stop : Nat} :
    checkBounds w start stop = some .bitRange ↔ start > stop ∨ stop > w := by
  simp [checkBounds, imp_iff_not_or]

theorem extractBits_eq_bitRange_iff {w : Nat} (c : BitVec w) (start stop : Nat) :
    extractBits c start stop = .error .bitRange ↔ start > stop ∨ stop > w := by
  rw [← accessError_eq_some, accessError_extractBits, checkBounds_eq_bitRange_iff]

theorem writeBits_eq_bitRange_iff {w : Nat} (c : BitVec w) (x start stop : Nat) :
    writeBits c x start stop = .error .bitRange ↔ start > stop ∨ stop > w := by
  rw [← accessError_eq_some, accessError_writeBits, checkBounds_eq_bitRange_iff]

/-! ## The field read (R92) -/

theorem extractBits_of_legal {w : Nat} (c : BitVec w) {start stop : Nat} (h : start ≤ stop) (h' : stop ≤ w) :
    extractBits c start stop = .ok (fieldOf c.toNat start stop) := by
  simp [extractBits, checkBounds_of_legal h h']

theorem fieldOf_lt (c start stop : Nat) : fieldOf c start stop < 2 ^ (stop - start) :=
  Nat.mod_lt _ (Nat.two_pow_pos _)

@[simp] theorem fieldOf_empty (c start : Nat) : fieldOf c start start = 0 := by
  simp [fieldOf, Nat.mod_one]

theorem testBit_fieldOf (c start stop i : Nat) :
    (fieldOf c start stop).testBit i = (decide (i < stop - start) && c.testBit (start + i)) := by
  rw [fieldOf, Nat.testBit_mod_two_pow, Nat.testBit_div_two_pow, Nat.add_comm]

/-! ## The field replaced (R93) -/

/-- `c` with the field `[start, stop)` replaced by the low bits of `x`: what `c` has above the field, then the field, then
what `c` has below it. -/
def replaceField (c x start stop : Nat) : Nat :=
  2 ^ start * (2 ^ (stop - start) * (c / 2 ^ stop) + x % 2 ^ (stop - start)) + c % 2 ^ start

theorem div_two_pow_div_two_pow_sub (c : Nat) {start stop : Nat} (h : start ≤ stop) :
    c / 2 ^ start / 2 ^ (stop - start) = c / 2 ^ stop := by
  rw [Nat.div_div_eq_div_mul, ← Nat.pow_add, Nat.add_sub_cancel' h]

/-- The three parts of a container: above, in and below the field. -/
theorem field_split (c : Nat) {start stop : Nat} (h : start ≤ stop) :
    2 ^ start * (2 ^ (stop - start) * (c / 2 ^ stop) + fieldOf c start stop) + c % 2 ^ start = c := by
  rw [fieldOf, ← div_two_pow_div_two_pow_sub c h, Nat.div_add_mod, Nat.div_add_mod]

theorem writeBits_of_legal {w : Nat} (c : BitVec w) (x : Nat) {start stop : Nat} (h : start ≤ stop) (h' : stop ≤ w) :
    writeBits c x start stop = .ok (replaceField c.toNat x start stop) := by
  have hsplit := field_split c.toNat h
  simp only [writeBits, checkBounds_of_legal h h', replaceField, Nat.mul_comm _ (2 ^ start), Nat.mul_add] at hsplit ⊢
  congr 1
  omega

/-- The written container as the sum of its bits above, in and below the field. -/
theorem replaceField_eq_sum (c x : Nat) {start stop : Nat} (h : start ≤ stop) :
    replaceField c x start stop = c / 2 ^ stop * 2 ^ stop + x % 2 ^ (stop - start) * 2 ^ start + c % 2 ^ start := by
  rw [replaceField, Nat.mul_add, ← Nat.mul_assoc, ← Nat.pow_add, Nat.add_sub_cancel' h, Nat.mul_comm (2 ^ stop),
    Nat.mul_comm (2 ^ start)]

theorem testBit_replaceField (c x : Nat) {start stop : Nat} (h : start ≤ stop) (i : Nat) :
    (replaceField c x start stop).testBit i =
      if start ≤ i ∧ i < stop then x.testBit (i - start) else c.testBit i := by
  rw [replaceField, Nat.testBit_two_pow_mul_add _ (Nat.mod_lt _ (Nat.two_pow_pos _)),
    Nat.testBit_two_pow_mul_add _ (Nat.mod_lt _ (Nat.two_pow_pos _)), Nat.testBit_mod_two_pow, Nat.testBit_mod_two_pow,
    Nat.testBit_div_two_pow]
  rcases Nat.lt_or_ge i start with hbelow | hstart
  · simp [hbelow, Nat.not_le.mpr hbelow]
  · rcases Nat.lt_or_ge i stop with hinside | habove
    · simp [Nat.not_lt.mpr hstart, hstart, hinside, Nat.sub_lt_sub_right hstart hinside]
    · have hbit : i - start - (stop - start) + stop = i := by omega
      simp [Nat.not_lt.mpr hstart, Nat.not_lt.mpr habove, Nat.not_lt.mpr (Nat.sub_le_sub_right habove start), hbit]

theorem testBit_replaceField_inside (c x : Nat) {start stop i : Nat} (hi : start ≤ i) (hi' : i < stop) :
    (replaceField c x start stop).testBit i = x.testBit (i - start) := by
  rw [testBit_replaceField c x (hi.trans hi'.le), if_pos ⟨hi, hi'⟩]

theorem testBit_replaceField_outside (c x : Nat) {start stop i : Nat} (h : start ≤ stop) (hi : i < start ∨ stop ≤ i) :
    (replaceField c x start stop).testBit i = c.testBit i := by
  rw [testBit_replaceField c x h, if_neg (by omega)]

theorem replaceField_lt {w : Nat} (c : BitVec w) (x : Nat) {start stop : Nat} (h : start ≤ stop) (h' : stop ≤ w) :
    replaceField c.toNat x start stop < 2 ^ w := by
  refine Nat.lt_pow_two_of_testBit _ fun i hi => ?_
  rw [testBit_replaceField_outside _ _ h (.inr (h'.trans hi)), BitVec.testBit_toNat, BitVec.getLsbD_of_ge c i hi]

/-- Reading what was written gives the content masked to the field (R95 (b)). -/
theorem fieldOf_replaceField (c x start stop : Nat) :
    fieldOf (replaceField c x start stop) start stop = x % 2 ^ (stop - start) := by
  rw [fieldOf, replaceField, Nat.mul_add_div (Nat.two_pow_pos _), Nat.div_eq_of_lt (Nat.mod_lt _ (Nat.two_pow_pos _)),
    Nat.add_zero, Nat.mul_add_mod, Nat.mod_mod]

/-- Writing what was read changes nothing (R95 (c)). -/
theorem replaceField_fieldOf (c : Nat) {start stop : Nat} (h : start ≤ stop) :
    replaceField c (fieldOf c start stop) start stop = c := by
  rw [replaceField, Nat.mod_eq_of_lt (fieldOf_lt c start stop), field_split c h]

theorem replaceField_empty (c x start : Nat) : replaceField c x start start = c := by
  simp [replaceField, Nat.mod_one, Nat.div_add_mod]

/-! ## The statements about the accessors -/

/-- Settles O41: the bounds check decides the error, and `fieldOf` is the value. -/
theorem extractReadsTheField : Obligations.ExtractReadsTheField := by
  intro w c start stop
  refine ⟨extractBits_eq_bitRange_iff c start stop, fun h h' => ?_, fun x => writeBits_eq_bitRange_iff c x start stop,
    fun h => ?_⟩
  · exact ⟨_, extractBits_of_legal c h h', fieldOf_lt _ _ _, rfl, testBit_fieldOf _ _ _⟩
  · rw [extractBits_of_legal c le_rfl h, fieldOf_empty]

/-- Settles O42: `replaceField` is the value, and its bits are those of the content and of the container. -/
theorem writeReplacesTheField : Obligations.WriteReplacesTheField := by
  intro w c x start stop h h'
  refine ⟨_, writeBits_of_legal c x h h', replaceField_lt c x h h', fun i => testBit_replaceField_inside _ _,
    fun i => testBit_replaceField_outside _ _ h, ?_⟩
  rintro rfl
  exact replaceField_empty _ _ _

/-- Settles O43: the laws of `fieldOf` and `replaceField`, carried over to the containers. -/
theorem accessorLaws : Obligations.AccessorLaws := by
  refine ⟨fun v => ?_, fun w c x start stop h h' => ?_, fun w c start stop h h' => ?_⟩
  · rw [extractBits_of_legal v (Nat.zero_le _) le_rfl, fieldOf, Nat.pow_zero, Nat.div_one, Nat.mod_eq_of_lt v.isLt]
  · have hval : (BitVec.ofNat w (replaceField c.toNat x start stop)).toNat = replaceField c.toNat x start stop :=
      Nat.mod_eq_of_lt (replaceField_lt c x h h')
    refine ⟨_, writeBits_of_legal c x h h', ?_, fun i hi => ?_⟩
    · rw [extractBits_of_legal _ h h', hval, fieldOf_replaceField]
    · rw [← BitVec.testBit_toNat, hval, testBit_replaceField_outside _ _ h hi, BitVec.testBit_toNat]
  · exact ⟨_, extractBits_of_legal c h h', by rw [writeBits_of_legal c _ h h', replaceField_fieldOf _ h]⟩

/-- A slice of a bit vector that lies within it is a legal extraction. -/
theorem extractBits_eq_extractLsb' {w : Nat} (c : BitVec w) {start len : Nat} (h : start + len ≤ w) :
    extractBits c start (start + len) = .ok (c.extractLsb' start len).toNat := by
  rw [extractBits_of_legal c (Nat.le_add_right _ _) h, fieldOf, BitVec.extractLsb'_toNat, Nat.shiftRight_eq_div_pow,
    Nat.add_sub_cancel_left]

theorem extractBits_eq_getLsbD {w : Nat} (c : BitVec w) {i : Nat} (h : i < w) :
    extractBits c i (i + 1) = .ok (c.getLsbD i).toNat := by
  rw [extractBits_of_legal c (Nat.le_add_right i 1) h, fieldOf, Nat.add_sub_cancel_left, Nat.pow_one, ← BitVec.testBit_toNat,
    Nat.toNat_testBit]

theorem toNat_baseByte (m : Imm12) : (baseByte m).toNat = (m.extractLsb' 0 8).toNat := by
  rw [baseByte, BitVec.toNat_setWidth_of_le (by decide)]

/-- Settles O45: the block's own reads are slices within their container, or single bits. -/
theorem fieldReadsAreExtractions : Obligations.FieldReadsAreExtractions := by
  refine ⟨fun m => ⟨?_, ?_⟩, fun s => ?_, fun v i hi => extractBits_eq_getLsbD v hi⟩
  · exact extractBits_eq_extractLsb' m (start := 8) (len := 4) (by decide)
  · rw [toNat_baseByte]
    exact extractBits_eq_extractLsb' m (start := 0) (len := 8) (by decide)
  · exact extractBits_eq_extractLsb' s.inp.rs (start := 0) (len := 8) (by decide)

end Sys2Proof.Machine
end

section
/-! SUPPORT. The population count (spec/40_bitfield.md R94): one round of Kernighan's loop clears one bit. -/

namespace Sys2Proof.Machine

/-- The number of one bits of `x` below bit `n`. -/
def onesBelow (n x : Nat) : Nat := (List.range n).countP x.testBit

theorem countBits_eq_onesBelow (v : Word) : countBits v = onesBelow 32 v.toNat := rfl

theorem onesBelow_le (n x : Nat) : onesBelow n x ≤ n := by
  simpa [onesBelow] using List.countP_le_length (p := x.testBit) (l := List.range n)

theorem onesBelow_zero (n : Nat) : onesBelow n 0 = 0 := by
  simp [onesBelow]

/-- Bit 0, and then the bits of the half. -/
theorem onesBelow_succ (n x : Nat) : onesBelow (n + 1) x = x % 2 + onesBelow n (x / 2) := by
  have hbit : (if x.testBit 0 then 1 else 0) = x % 2 := by
    rcases Nat.mod_two_eq_zero_or_one x with h | h <;> simp [h]
  have hshift : x.testBit ∘ Nat.succ = (x / 2).testBit := funext fun i => Nat.testBit_succ x i
  rw [onesBelow, List.range_succ_eq_map, List.countP_cons, List.countP_map, hshift, hbit, Nat.add_comm]
  rfl

/-- `x &&& (x - 1)` is even: one of the two is. -/
theorem and_sub_one_mod_two (x : Nat) : (x &&& (x - 1)) % 2 = 0 := by
  rw [← Nat.mod_two_ne_one, ne_eq, Nat.and_mod_two_eq_one]
  omega

theorem and_sub_one_div_two_of_odd {x : Nat} (h : x % 2 = 1) : (x &&& (x - 1)) / 2 = x / 2 := by
  rw [Nat.and_div_two, show (x - 1) / 2 = x / 2 by omega, Nat.and_self]

theorem and_sub_one_div_two_of_even {x : Nat} (h : x % 2 = 0) : (x &&& (x - 1)) / 2 = x / 2 &&& (x / 2 - 1) := by
  rw [Nat.and_div_two, show (x - 1) / 2 = x / 2 - 1 by omega]

/-- `x &&& (x - 1)` is `x` with its lowest one bit cleared: bit 0 where `x` is odd, a bit of the half where it is even. -/
theorem onesBelow_and_sub_one (n : Nat) : ∀ x, 0 < x → x < 2 ^ n → onesBelow n (x &&& (x - 1)) + 1 = onesBelow n x := by
  induction n with
  | zero => omega
  | succ n ih =>
    intro x hpos hlt
    rw [onesBelow_succ, onesBelow_succ, and_sub_one_mod_two]
    rcases Nat.mod_two_eq_zero_or_one x with hx | hx
    · rw [hx, and_sub_one_div_two_of_even hx, ← ih (x / 2) (by omega) (by omega), Nat.add_assoc]
    · rw [hx, and_sub_one_div_two_of_odd hx, Nat.zero_add, Nat.add_comm]

/-- As many rounds as there are one bits are enough for the loop. -/
theorem kernighanCount_eq_onesBelow {n : Nat} (k : Nat) :
    ∀ x, x < 2 ^ n → onesBelow n x ≤ k → kernighanCount k x = onesBelow n x := by
  induction k with
  | zero => exact fun x _ hk => (Nat.le_zero.mp hk).symm
  | succ k ih =>
    intro x hlt hk
    rw [kernighanCount]
    split
    · next hx => rw [hx, onesBelow_zero]
    · next hx =>
      have hround := onesBelow_and_sub_one n x (Nat.pos_of_ne_zero hx) hlt
      rw [ih _ (Nat.and_le_left.trans_lt hlt) (by omega), Nat.add_comm, hround]

theorem countP_eq_sum_toNat {α : Type} (p : α → Bool) (l : List α) : l.countP p = (l.map fun a => (p a).toNat).sum := by
  induction l with
  | nil => rfl
  | cons a l ih => cases h : p a <;> simp [h, ih, Nat.add_comm]

theorem countBits_eq_sum (v : Word) : countBits v = ((List.range 32).map fun i => (v.getLsbD i).toNat).sum :=
  countP_eq_sum_toNat _ _

/-- Settles O44: the loop clears one bit a round, and there are at most 32 of them. -/
theorem countIsKernighans : Obligations.CountIsKernighans := fun v =>
  ⟨countBits_eq_sum v, onesBelow_le 32 v.toNat,
    fun k hk => kernighanCount_eq_onesBelow k v.toNat v.isLt ((onesBelow_le 32 _).trans hk)⟩

end Sys2Proof.Machine
end

section
/-! SUPPORT. The commands of group BITS (spec/40_bitfield.md R97 to R99): what each answers, and its word. -/

namespace Sys2Proof.Machine

open Sys2Proof.Claims

theorem completes_extractBits {w : Container} {start stop n : Nat} {s : State} (h : extractFrom w start stop s = .ok n) :
    completes (.extractBits w start stop) s (some (BitVec.ofNat 32 n)) none none :=
  congrArg (fun r => Host.Outcome.next (answerField r s)) h

theorem completes_writeBits {w : Container} {start stop n : Nat} {s : State} (h : writeTo w start stop s = .ok n) :
    completes (.writeBits w start stop) s (some (BitVec.ofNat 32 n)) none none :=
  congrArg (fun r => Host.Outcome.next (answerField r s)) h

theorem raises_of_argumentError {i : Instr} {s : State} {e : ErrorKind} (h : argumentError i = some e) : raises i s e :=
  exec_of_argumentError h

theorem toNat_bounds {start stop : Nat} (hstart : start < 64) (hstop : stop < 64) :
    (BitVec.ofNat 6 stop ++ BitVec.ofNat 6 start).toNat = stop * 2 ^ 6 + start := by
  rw [BitVec.toNat_append, ← Nat.shiftLeft_add_eq_or_of_lt (BitVec.isLt _), Nat.shiftLeft_eq, BitVec.toNat_ofNat,
    BitVec.toNat_ofNat, Nat.mod_eq_of_lt hstart, Nat.mod_eq_of_lt hstop]

/-- The word `base | w<<12 | end<<6 | start` is the encoding of group 6 whose `op` stands in the base. -/
theorem fieldWord_eq_encodeBits {base : Nat} {op : BitVec 4} (w : Container) {start stop : Nat}
    (hbase : base = (6 * 16 + op.toNat) * 2 ^ 16) (hstart : start < 64) (hstop : stop < 64) :
    fieldWord base w start stop = encodeBits op w start stop := by
  have hop := op.isLt
  rw [encodeBits, eq_cmdOf_iff]
  simp only [← BitVec.toNat_inj, toNat_grpOf, toNat_opOf, toNat_modOf, toNat_argOf, toNat_bounds hstart hstop, fieldWord,
    BitVec.toNat_ofNat]
  cases w <;> simp [containerCode] <;> omega

theorem decode_fieldWord {base : Nat} {op : BitVec 4} {w : Container} {start stop : Nat} {i : Instr}
    (hbase : base = (6 * 16 + op.toNat) * 2 ^ 16) (hstart : start < 64) (hstop : stop < 64)
    (hi : (op = 0 ∧ .extractBits w start stop = i) ∨ (op = 1 ∧ .writeBits w start stop = i)) :
    decode (fieldWord base w start stop) = .ok i := by
  rw [fieldWord_eq_encodeBits w hbase hstart hstop]
  exact decode_encodeBits (by simp [boundsFit, hstart, hstop]) hi

/-- Settles O58: the accessor of the selected container decides between the field and the error. -/
theorem bitFieldCommands : Obligations.BitFieldCommands := by
  refine ⟨fun s w start stop => ⟨fun ⟨h, h'⟩ => ?_, fun h => ?_⟩, fun w start stop hstart hstop =>
    ⟨decode_fieldWord rfl hstart hstop (.inl ⟨rfl, rfl⟩), decode_fieldWord rfl hstart hstop (.inr ⟨rfl, rfl⟩)⟩⟩
  · rw [← replaceField_eq_sum _ _ h]
    cases w <;> exact ⟨completes_extractBits (extractBits_of_legal _ h h'),
      completes_writeBits (writeBits_of_legal _ _ h h')⟩
  · have hcheck : checkBounds (Container.width w) start stop = some .bitRange := by
      rw [checkBounds_eq_bitRange_iff]
      cases w <;> exact h
    exact ⟨raises_of_argumentError hcheck, raises_of_argumentError hcheck⟩

/-- Settles O59: the count is the sum of the bits. -/
theorem countBitsCommand : Obligations.CountBitsCommand := by
  refine ⟨fun s => ?_, by decide⟩
  rw [← countBits_eq_sum]
  rfl

end Sys2Proof.Machine
end

section
/-! SUPPORT. The barrel shifter (spec/41_shifter_adder_expander.md R110 to R118): what `shiftC` answers in each range of
the amount, then the bits and the numbers of those answers. -/

namespace Sys2Proof.Machine

theorem getLsbD_31_eq_msb (x : Word) : x.getLsbD 31 = x.msb := (BitVec.msb_eq_getLsbD_last x).symm

/-! ## What `shiftC` answers, by type and range of the amount -/

theorem shiftC_zero {type : ShiftType} (h : type ≠ .rotateRight) (x : Word) (c : Bool) : shiftC x type 0 c = ⟨x, c⟩ := by
  cases type with
  | rotateRight => exact absurd rfl h
  | logicalLeft | logicalRight | arithmeticRight => rfl

theorem shiftC_rotateRight {n : Nat} (h : n ≠ 0) (x : Word) (c : Bool) : shiftC x .rotateRight n c = rotated x n :=
  if_neg h

section Short

variable {n : Nat} (x : Word) (c : Bool) (h : 1 ≤ n) (h' : n ≤ 31)

include h h'

theorem shiftC_logicalLeft_short : shiftC x .logicalLeft n c = ⟨x <<< n, x.getLsbD (32 - n)⟩ := by
  rw [shiftC, if_neg (Nat.ne_of_gt h), if_pos (Nat.lt_succ_of_le h')]

theorem shiftC_logicalRight_short : shiftC x .logicalRight n c = ⟨x >>> n, x.getLsbD (n - 1)⟩ := by
  rw [shiftC, if_neg (Nat.ne_of_gt h), if_pos (Nat.lt_succ_of_le h')]

theorem shiftC_arithmeticRight_short :
    shiftC x .arithmeticRight n c = ⟨x.sshiftRight n, x.getLsbD (n - 1)⟩ := by
  rw [shiftC, if_neg (Nat.ne_of_gt h), if_pos (Nat.lt_succ_of_le h')]

end Short

section Long

variable {n : Nat} (x : Word) (c : Bool) (h : 32 ≤ n)

include h

theorem shiftC_logicalLeft_long : shiftC x .logicalLeft n c = ⟨0, false⟩ := by
  rw [shiftC, if_neg (by omega), if_neg (by omega)]

theorem shiftC_logicalRight_long : shiftC x .logicalRight n c = ⟨0, false⟩ := by
  rw [shiftC, if_neg (by omega), if_neg (by omega)]

theorem shiftC_arithmeticRight_long :
    shiftC x .arithmeticRight n c = ⟨if x.getLsbD 31 then 0xFFFFFFFF#32 else 0#32, x.getLsbD 31⟩ := by
  rw [shiftC, if_neg (by omega), if_neg (by omega)]

/-- A shift by 32 or more has no use for the carry-in. -/
theorem shiftC_long_ignores_carryIn (type : ShiftType) (c' : Bool) : shiftC x type n c = shiftC x type n c' := by
  cases type with
  | logicalLeft => rw [shiftC_logicalLeft_long x c h, shiftC_logicalLeft_long x c' h]
  | logicalRight => rw [shiftC_logicalRight_long x c h, shiftC_logicalRight_long x c' h]
  | arithmeticRight => rw [shiftC_arithmeticRight_long x c h, shiftC_arithmeticRight_long x c' h]
  | rotateRight => rw [shiftC_rotateRight (by omega), shiftC_rotateRight (by omega)]

end Long

/-! ## RRX (R111) -/

theorem getLsbD_rotatedExtended (x : Word) (c : Bool) {i : Nat} (hi : i < 32) :
    (rotatedExtended x c).value.getLsbD i = if i = 31 then c else x.getLsbD (i + 1) := by
  have hcarry : (if c then 0x80000000#32 else 0#32).getLsbD i = (decide (i = 31) && c) :=
    (by decide : ∀ c : Bool, ∀ i < 32, (if c then 0x80000000#32 else 0#32).getLsbD i = (decide (i = 31) && c)) c i hi
  rw [rotatedExtended, BitVec.getLsbD_or, BitVec.getLsbD_ushiftRight, Nat.add_comm 1 i, hcarry]
  by_cases htop : i = 31
  · rw [BitVec.getLsbD_of_ge x (i + 1) (by omega), decide_eq_true htop, if_pos htop, Bool.false_or, Bool.true_and]
  · rw [decide_eq_false htop, if_neg htop, Bool.false_and, Bool.or_false]

/-! ## The rotation (R115, R118) -/

/-- Rotation moves bit `(i + n) mod 32` to bit `i`, for every `n`. -/
theorem getLsbD_rotated (x : Word) (n : Nat) {i : Nat} (hi : i < 32) :
    (rotated x n).value.getLsbD i = x.getLsbD ((i + n) % 32) := by
  rw [rotated, BitVec.rotateRight_mod_eq_rotateRight, BitVec.getLsbD_rotateRight]
  by_cases hlow : i < 32 - n % 32
  · rw [decide_eq_true hlow, cond_true, show (i + n) % 32 = n % 32 + i by omega]
  · rw [decide_eq_false hlow, decide_eq_true hi, cond_false, Bool.true_and,
      show (i + n) % 32 = i - (32 - n % 32) by omega]

theorem rotated_carry (x : Word) (n : Nat) : (rotated x n).carry = (rotated x n).value.getLsbD 31 := rfl

/-- The carry of a rotation is the last bit that moved from the bottom to the top. -/
theorem rotated_carry_eq_getLsbD (x : Word) {n : Nat} (h : 1 ≤ n) (h' : n ≤ 32) :
    (rotated x n).carry = x.getLsbD (n - 1) := by
  rw [rotated_carry, getLsbD_rotated x n (by decide), show (31 + n) % 32 = n - 1 by omega]

theorem rotated_of_mod_eq_zero (x : Word) {n : Nat} (h : n % 32 = 0) : rotated x n = ⟨x, x.getLsbD 31⟩ := by
  have hx : x.rotateRight 0 = x := by simp [BitVec.rotateRight_def]
  simp only [rotated, h, hx]

/-- The two parts of a rotated word have no bit in common, so their sum is the word. -/
theorem rotateRight_eq_add (x : Word) {n : Nat} (h : n ≤ 31) : x.rotateRight n = x >>> n + x <<< (32 - n) := by
  have hmod : n % 32 = n := Nat.mod_eq_of_lt (Nat.lt_succ_of_le h)
  have hdisjoint : x >>> n &&& x <<< (32 - n) = 0#32 := by
    refine BitVec.eq_of_getLsbD_eq fun i _ => ?_
    by_cases hi : i < 32 - n
    · simp [hi]
    · simp [BitVec.getLsbD_of_ge x (n + i) (by omega)]
  rw [BitVec.rotateRight_def, hmod, BitVec.add_eq_or_of_and_eq_zero _ _ hdisjoint]

theorem toNat_rotated (x : Word) {n : Nat} (h : n ≤ 31) :
    (rotated x n).value.toNat = (x.toNat / 2 ^ n + x.toNat * 2 ^ (32 - n)) % 2 ^ 32 := by
  rw [rotated, BitVec.rotateRight_mod_eq_rotateRight, rotateRight_eq_add x h, BitVec.toNat_add, BitVec.toNat_ushiftRight,
    BitVec.toNat_shiftLeft, Nat.shiftRight_eq_div_pow, Nat.shiftLeft_eq, Nat.add_mod_mod]

/-! ## The arithmetic shift (R114) -/

theorem sshiftRight_eq_trunc32_fdiv (x : Word) (n : Nat) : x.sshiftRight n = trunc32 (Int.fdiv x.toInt (2 ^ n)) := by
  rw [BitVec.sshiftRight, trunc32, Int.shiftRight_eq_div_pow, Int.fdiv_eq_ediv_of_nonneg _ (by positivity), Nat.cast_pow,
    Nat.cast_ofNat]

/-! ## The statements about the shifter -/

/-- Settles O29: only RotateRight does anything when the amount is 0. -/
theorem shiftByZeroIsIdentityOrRRX : Obligations.ShiftByZeroIsIdentityOrRRX := fun x c =>
  ⟨fun _ h => shiftC_zero h x c, getLsbD_rotatedExtended x c (by decide),
    fun i hi => (getLsbD_rotatedExtended x c (by omega)).trans (if_neg (by omega)), rfl⟩

/-- Settles O30: a shift to the left is a product. -/
theorem leftShiftMultiplies : Obligations.LeftShiftMultiplies := by
  intro x n c h h'
  rw [shiftC_logicalLeft_short x c h h']
  exact ⟨by rw [BitVec.toNat_shiftLeft, Nat.shiftLeft_eq], rfl⟩

/-- Settles O31: a shift to the right is a quotient, and the bits it brings in lie above the input. -/
theorem rightShiftDivides : Obligations.RightShiftDivides := by
  intro x n c h h'
  rw [shiftC_logicalRight_short x c h h']
  refine ⟨by rw [BitVec.toNat_ushiftRight, Nat.shiftRight_eq_div_pow], fun i hi _ => ?_, rfl⟩
  rw [BitVec.getLsbD_ushiftRight, BitVec.getLsbD_of_ge x (n + i) (by omega)]

/-- Settles O32: the signed shift is the floor quotient, and the bits it brings in are the sign. -/
theorem arithmeticShiftFloors : Obligations.ArithmeticShiftFloors := by
  intro x n c h h'
  rw [shiftC_arithmeticRight_short x c h h']
  refine ⟨sshiftRight_eq_trunc32_fdiv x n, fun i hi hi' => ?_, fun i hi => ?_, rfl⟩
  · rw [BitVec.getLsbD_sshiftRight, if_neg (by omega), decide_eq_false (by omega), getLsbD_31_eq_msb, Bool.not_false,
      Bool.true_and]
  · rw [BitVec.getLsbD_sshiftRight, if_pos (by omega), decide_eq_false (by omega), Nat.add_comm n i, Bool.not_false,
      Bool.true_and]

/-- Settles O33: bit by bit, and as the sum of the two parts of the rotated word. -/
theorem rotateMovesEveryBit : Obligations.RotateMovesEveryBit := by
  intro x n c h h'
  rw [shiftC_rotateRight (by omega)]
  exact ⟨fun i hi => getLsbD_rotated x n hi, toNat_rotated x h', rotated_carry x n,
    rotated_carry_eq_getLsbD x h (by omega)⟩

/-- Settles O34: nothing of the input but its sign is left. -/
theorem longShiftsSaturate : Obligations.LongShiftsSaturate := by
  intro x n c h
  rw [shiftC_arithmeticRight_long x c h]
  exact ⟨shiftC_logicalLeft_long x c h, shiftC_logicalRight_long x c h, rfl,
    fun hsign => if_neg (ne_true_of_eq_false hsign), fun hsign => if_pos hsign⟩

/-- Settles O35: the rotation is by the amount modulo 32, also when that is 0. -/
theorem longRotateReduces : Obligations.LongRotateReduces := by
  intro x n c c' h
  have hrotate : shiftC x .rotateRight n c = rotated x n := shiftC_rotateRight (by omega) x c
  refine ⟨fun i hi => ?_, ?_, fun hn => ?_, fun type => shiftC_long_ignores_carryIn x c h type c'⟩
  · rw [hrotate, getLsbD_rotated x n hi, Nat.add_mod_mod]
  · rw [hrotate, rotated_carry]
  · rw [hrotate, rotated_of_mod_eq_zero x hn]

end Sys2Proof.Machine
end

section
/-! SUPPORT. The adder (spec/41_shifter_adder_expander.md R120, R121): its three outputs as facts about the exact sums. -/

namespace Sys2Proof.Machine

/-! ## Signs and narrowed integers -/

theorem getLsbD_31_eq_decide_neg (x : Word) : x.getLsbD 31 = decide (x.toInt < 0) := by
  rw [getLsbD_31_eq_msb, BitVec.msb_eq_toInt]

theorem toInt_bounds (x : Word) : -2 ^ 31 ≤ x.toInt ∧ x.toInt ≤ 2 ^ 31 - 1 :=
  ⟨x.le_toInt, Int.le_sub_one_of_lt x.toInt_lt⟩

theorem toInt_not (x : Word) : (~~~x).toInt = -1 - x.toInt := by
  have hx := x.isLt
  have hnot : (~~~x).toNat = 2 ^ 32 - 1 - x.toNat := BitVec.toNat_not
  rw [BitVec.toInt_eq_toNat_cond, BitVec.toInt_eq_toNat_cond, hnot]
  split <;> split <;> omega

theorem toInt_trunc32_eq_iff (z : Int) : (trunc32 z).toInt = z ↔ -2 ^ 31 ≤ z ∧ z ≤ 2 ^ 31 - 1 := by
  rw [trunc32, BitVec.toInt_ofInt, Int.bmod_eq_iff (by decide), Int.sub_self]
  simp only [dvd_zero, and_true]
  omega

theorem toInt_trunc32_emod (z : Int) : (trunc32 z).toInt % 2 ^ 32 = z % 2 ^ 32 := by
  rw [trunc32, BitVec.toInt_ofInt]
  exact Int.bmod_emod

/-! ## The outputs of `addWithCarry` (R120) -/

section AddWithCarry

variable (x y : Word) (c : Bool)

theorem toNat_addWithCarry_result : (addWithCarry x y c).result.toNat = (x.toNat + y.toNat + c.toNat) % 2 ^ 32 :=
  BitVec.toNat_ofNat _ _

theorem addWithCarry_result_eq_unsigned : (addWithCarry x y c).result = trunc32 (x.toNat + y.toNat + c.toNat) := by
  rw [trunc32, ← Nat.cast_add, ← Nat.cast_add, BitVec.ofInt_natCast]
  rfl

/-- The signed sum narrows to the same word as the unsigned one. -/
theorem addWithCarry_result_eq_signed : (addWithCarry x y c).result = trunc32 (x.toInt + y.toInt + c.toNat) := by
  rw [addWithCarry_result_eq_unsigned]
  simp only [trunc32, BitVec.ofInt_add, BitVec.ofInt_toInt, BitVec.ofInt_natCast, BitVec.ofNat_toNat, BitVec.setWidth_eq]

theorem addWithCarry_carry_iff :
    (addWithCarry x y c).carry = true ↔ 2 ^ 32 ≤ x.toNat + y.toNat + c.toNat := by
  have hcarry : (addWithCarry x y c).carry = true ↔
      (addWithCarry x y c).result.toNat ≠ x.toNat + y.toNat + c.toNat := decide_eq_true_iff
  rw [hcarry, toNat_addWithCarry_result]
  omega

/-- Carry and result together are the exact unsigned sum. -/
theorem addWithCarry_carry_result :
    (addWithCarry x y c).carry.toNat * 2 ^ 32 + (addWithCarry x y c).result.toNat = x.toNat + y.toNat + c.toNat := by
  have hcarry := addWithCarry_carry_iff x y c
  have hresult := toNat_addWithCarry_result x y c
  have hx := x.isLt
  have hy := y.isLt
  have hc := c.toNat_le
  cases h : (addWithCarry x y c).carry with
  | false =>
    have hsmall := mt hcarry.mpr (ne_true_of_eq_false h)
    rw [Bool.toNat_false]
    omega
  | true =>
    have hlarge := hcarry.mp h
    rw [Bool.toNat_true]
    omega

theorem addWithCarry_overflow_iff :
    (addWithCarry x y c).overflow = true ↔
      x.toInt + y.toInt + c.toNat < -2 ^ 31 ∨ 2 ^ 31 - 1 < x.toInt + y.toInt + c.toNat := by
  have hoverflow : (addWithCarry x y c).overflow = true ↔
      (addWithCarry x y c).result.toInt ≠ x.toInt + y.toInt + c.toNat := decide_eq_true_iff
  rw [hoverflow, addWithCarry_result_eq_signed, Ne, toInt_trunc32_eq_iff]
  omega

/-- Only two operands of one sign can overflow, and the sum then has the other sign. -/
theorem addWithCarry_overflow_iff_signs :
    (addWithCarry x y c).overflow = true ↔
      x.getLsbD 31 = y.getLsbD 31 ∧ (addWithCarry x y c).result.getLsbD 31 ≠ x.getLsbD 31 := by
  have hx := toInt_bounds x
  have hy := toInt_bounds y
  have hc := c.toNat_le
  have hr := toInt_bounds (addWithCarry x y c).result
  have hmod : (addWithCarry x y c).result.toInt % 2 ^ 32 = (x.toInt + y.toInt + c.toNat) % 2 ^ 32 := by
    rw [addWithCarry_result_eq_signed, toInt_trunc32_emod]
  rw [addWithCarry_overflow_iff]
  simp only [getLsbD_31_eq_decide_neg, ne_eq, decide_eq_decide]
  omega

theorem addWithCarry_comm : addWithCarry x y c = addWithCarry y x c := by
  simp only [addWithCarry, Nat.add_comm x.toNat, Int.add_comm x.toInt]

end AddWithCarry

/-- Settles O36: the four readings of the sum, each a lemma about `addWithCarry`. -/
theorem adderCarryAndOverflow : Obligations.AdderCarryAndOverflow := fun x y c =>
  ⟨toNat_addWithCarry_result x y c, addWithCarry_carry_iff x y c, addWithCarry_overflow_iff x y c,
    addWithCarry_overflow_iff_signs x y c⟩

/-! ## Subtraction (R121) -/

/-- Adding a complement subtracts, with the carry-in as "not borrow", and so is the carry-out. -/
theorem addWithCarry_not (x y : Word) (c : Bool) :
    (addWithCarry x (~~~y) c).result = trunc32 (x.toNat - y.toNat - (1 - c.toNat)) ∧
    ((addWithCarry x (~~~y) c).carry = true ↔ 0 ≤ (x.toNat : Int) - y.toNat - (1 - c.toNat)) ∧
    ((addWithCarry x (~~~y) c).overflow = true ↔
      x.toInt - y.toInt - (1 - c.toNat) < -2 ^ 31 ∨ 2 ^ 31 - 1 < x.toInt - y.toInt - (1 - c.toNat)) := by
  have hy := y.isLt
  have hnot : (~~~y).toNat = 2 ^ 32 - 1 - y.toNat := BitVec.toNat_not
  refine ⟨?_, ?_, ?_⟩
  · rw [addWithCarry_result_eq_unsigned, hnot]
    have hsum : ((x.toNat : Int) + (2 ^ 32 - 1 - y.toNat : Nat) + c.toNat) =
        (x.toNat - y.toNat - (1 - c.toNat)) + 2 ^ 32 := by omega
    rw [hsum, trunc32, BitVec.ofInt_add]
    exact BitVec.add_zero _
  · rw [addWithCarry_carry_iff, hnot]
    omega
  · rw [addWithCarry_overflow_iff, toInt_not]
    omega

/-- Settles O37: the reversed forms are the direct ones with the operands exchanged, and SUB is SBC without a borrow. -/
theorem subtractionIsNotBorrow : Obligations.SubtractionIsNotBorrow := by
  rintro x y c a u v (⟨rfl, rfl, rfl⟩ | ⟨rfl, rfl, rfl⟩ | ⟨rfl, rfl, rfl⟩ | ⟨rfl, rfl, rfl⟩)
  · simpa [adderSub] using addWithCarry_not x y true
  · exact addWithCarry_not x y c
  · rw [adderRsb, addWithCarry_comm]
    simpa using addWithCarry_not y x true
  · rw [adderRsc, addWithCarry_comm]
    exact addWithCarry_not y x c

/-! ## The carry chain (R275) -/

theorem joined_halves (p : BitVec 64) : joined (highHalf p) (lowHalf p) = p.toNat := by
  have hp := p.isLt
  simp only [joined, highHalf, lowHalf, BitVec.extractLsb'_toNat, Nat.shiftRight_eq_div_pow]
  omega

theorem joined_lt (h l : Word) : joined h l < 2 ^ 64 := by
  have hh := h.isLt
  have hl := l.isLt
  rw [joined]
  omega

/-- Two sums of words, exact with their carries, the second taking the carry of the first, are a sum of 64-bit values. -/
theorem joined_of_carry_chain (p q : BitVec 64) {lo hi : Sum}
    (hlo : lo.carry.toNat * 2 ^ 32 + lo.result.toNat = (lowHalf p).toNat + (lowHalf q).toNat)
    (hhi : hi.carry.toNat * 2 ^ 32 + hi.result.toNat = (highHalf p).toNat + (highHalf q).toNat + lo.carry.toNat) :
    joined hi.result lo.result = (p.toNat + q.toNat) % 2 ^ 64 := by
  have hsum : p.toNat + q.toNat = joined hi.result lo.result + 2 ^ 64 * hi.carry.toNat := by
    rw [← joined_halves p, ← joined_halves q]
    simp only [joined]
    linarith
  rw [hsum, Nat.add_mul_mod_self_left, Nat.mod_eq_of_lt (joined_lt _ _)]

/-- Settles O38: each addition is exact with its carry. -/
theorem addThenAdcIsWideAddition : Obligations.AddThenAdcIsWideAddition := fun a b =>
  joined_of_carry_chain a b (addWithCarry_carry_result (lowHalf a) (lowHalf b) false)
    (addWithCarry_carry_result (highHalf a) (highHalf b) _)

end Sys2Proof.Machine
end

section
/-! SUPPORT. The immediate expander (spec/41_shifter_adder_expander.md R122, R123): its two fields as numbers and bits,
and its answer with and without a rotation. -/

namespace Sys2Proof.Machine

/-! ## The rotation nibble and the byte (R70) -/

theorem rotationNibble_eq_div (m : Imm12) : rotationNibble m = m.toNat / 2 ^ 8 := by
  rw [rotationNibble, BitVec.extractLsb'_toNat, Nat.shiftRight_eq_div_pow]
  exact Nat.mod_eq_of_lt (Nat.div_lt_of_lt_mul m.isLt)

theorem rotationNibble_lt (m : Imm12) : rotationNibble m < 16 := BitVec.isLt _

theorem toNat_baseByte_eq_mod (m : Imm12) : (baseByte m).toNat = m.toNat % 2 ^ 8 := by
  rw [toNat_baseByte, BitVec.extractLsb'_toNat, Nat.shiftRight_zero]

theorem baseByte_eq_ofNat (m : Imm12) : baseByte m = BitVec.ofNat 32 (m.toNat % 2 ^ 8) := by
  rw [← toNat_baseByte_eq_mod, BitVec.ofNat_toNat, BitVec.setWidth_eq]

theorem getLsbD_baseByte (m : Imm12) (i : Nat) : (baseByte m).getLsbD i = (decide (i < 8) && m.getLsbD i) := by
  rw [← BitVec.testBit_toNat, toNat_baseByte_eq_mod, Nat.testBit_mod_two_pow, BitVec.testBit_toNat]

/-! ## The answer of the expander (R122) -/

theorem processImm12_of_nibble_eq_zero {m : Imm12} (h : rotationNibble m = 0) (c : Bool) :
    processImm12 m c = ⟨baseByte m, c⟩ := if_pos h

theorem processImm12_of_nibble_ne_zero {m : Imm12} (h : rotationNibble m ≠ 0) (c : Bool) :
    processImm12 m c = rotated (baseByte m) (2 * rotationNibble m) := by
  rw [processImm12, if_neg h, shiftC_rotateRight (by omega)]

/-- The last bit of the byte to move to the top is bit `2r - 1`. -/
theorem processImm12_carry {m : Imm12} (h : rotationNibble m ≠ 0) (c : Bool) :
    (processImm12 m c).carry = (decide (2 * rotationNibble m - 1 < 8) && m.getLsbD (2 * rotationNibble m - 1)) := by
  have hlt := rotationNibble_lt m
  rw [processImm12_of_nibble_ne_zero h, rotated_carry_eq_getLsbD _ (by omega) (by omega), getLsbD_baseByte]

theorem processImm12_value_ignores_carryIn (m : Imm12) (c c' : Bool) :
    (processImm12 m c).value = (processImm12 m c').value := by
  by_cases h : rotationNibble m = 0
  · rw [processImm12_of_nibble_eq_zero h, processImm12_of_nibble_eq_zero h]
  · rw [processImm12_of_nibble_ne_zero h, processImm12_of_nibble_ne_zero h]

/-- A rotated byte is not `0xFF`: bit 7 of the result would need a rotation by 25 or more, and bit 0 one by less than 8. -/
theorem processImm12_value_ne_ff {m : Imm12} (h : rotationNibble m ≠ 0) (c : Bool) :
    (processImm12 m c).value ≠ 0xFF#32 := by
  have hlt := rotationNibble_lt m
  intro hff
  have hbit : ∀ i < 8, (i + 2 * rotationNibble m) % 32 < 8 := by
    intro i hi
    have hset : (processImm12 m c).value.getLsbD i = true := by
      rw [hff]
      exact (by decide : ∀ i < 8, (0xFF#32).getLsbD i = true) i hi
    rw [processImm12_of_nibble_ne_zero h, getLsbD_rotated _ _ (by omega), getLsbD_baseByte, Bool.and_eq_true,
      decide_eq_true_iff] at hset
    exact hset.1
  have hlow := hbit 0 (by decide)
  have hhigh := hbit 7 (by decide)
  omega

theorem eq_0FF_of_processImm12_value {m : Imm12} {c : Bool} (hff : (processImm12 m c).value = 0xFF#32) : m = 0x0FF#12 := by
  have h : rotationNibble m = 0 := by
    by_contra h
    exact processImm12_value_ne_ff h c hff
  have hbyte : m.toNat % 2 ^ 8 = 0xFF := by
    rw [processImm12_of_nibble_eq_zero h] at hff
    rw [← toNat_baseByte_eq_mod, show baseByte m = 0xFF#32 from hff]
    rfl
  rw [rotationNibble_eq_div] at h
  apply BitVec.eq_of_toNat_eq
  rw [show (0x0FF#12).toNat = 0xFF from rfl]
  omega

/-! ## The statements about the expander -/

/-- Settles O39: the byte as it is, or its rotation. -/
theorem expanderRotatesTheByte : Obligations.ExpanderRotatesTheByte := by
  intro m c
  simp only [← rotationNibble_eq_div]
  refine ⟨fun h => ?_, fun h => ?_⟩
  · rw [processImm12_of_nibble_eq_zero h]
    exact ⟨toNat_baseByte_eq_mod m, rfl⟩
  · rw [processImm12_of_nibble_ne_zero h]
    refine ⟨fun i hi => ?_, rotated_carry _ _, ?_⟩
    · rw [getLsbD_rotated _ _ hi, ← BitVec.testBit_toNat, toNat_baseByte_eq_mod]
    · rw [shiftC_rotateRight (by omega), baseByte_eq_ofNat]

/-- Settles O40: bit `2r - 1` of the byte is 0 once `r` is above 4, and neither case of the value has the carry-in. -/
theorem expanderCarryFacts : Obligations.ExpanderCarryFacts := by
  refine ⟨fun m c c' => ?_, by decide⟩
  simp only [← rotationNibble_eq_div]
  refine ⟨fun h => ⟨?_, fun hcarry => ?_, ?_⟩, processImm12_value_ignores_carryIn m c c', eq_0FF_of_processImm12_value⟩
  · rw [processImm12_carry h]
    by_cases hbyte : 2 * rotationNibble m - 1 < 8
    · rw [if_neg (by omega), decide_eq_true hbyte, Bool.true_and, Nat.add_zero]
    · rw [if_pos (by omega), decide_eq_false hbyte, Bool.false_and, BitVec.getLsbD_of_ge _ _ (by omega)]
  · rw [processImm12_carry h, Bool.and_eq_true, decide_eq_true_iff] at hcarry
    omega
  · rw [processImm12_of_nibble_ne_zero h, processImm12_of_nibble_ne_zero h]

end Sys2Proof.Machine
end

section
/-! SUPPORT. What a data-processing command answers once its operand 2 is formed, in whichever of the three forms
(spec/41_shifter_adder_expander.md R120 to R129). -/

namespace Sys2Proof.Machine

open Sys2Proof.Claims

/-! ## The candidate set as a number (R22, R127, R128) -/

theorem packFlags_resultFlags (r : Word) (c v : Bool) : packFlags (resultFlags r c v) = candidate r c v := by
  have hn : r.getLsbD 31 = decide (2 ^ 31 ≤ r.toNat) := (getLsbD_31_eq_msb r).trans (BitVec.msb_eq_decide r)
  have hz : (r = 0) = (r.toNat = 0) := propext BitVec.toNat_inj.symm
  simp only [packFlags_eq_flagSet, resultFlags, candidate, hn, hz]

section Commands

variable {i : Instr} {s : State}

theorem bitwise_of_exec {r : Word} {o : Shifted} (h : exec i s = .next (answerBitwise r o s)) :
    bitwise i s r o.carry := by
  rw [bitwise, completes, h, answerBitwise_eq, bitwiseFlags, packFlags_resultFlags]
  rfl

theorem arithmetic_of_exec {a : Sum} {value : Int} (hvalue : a.result = trunc32 value)
    (h : exec i s = .next (answerArithmetic a s)) : arithmetic i s a value := by
  refine ⟨?_, hvalue⟩
  rw [completes, h, answerArithmetic_eq, arithmeticFlags, packFlags_resultFlags]
  rfl

/-! ## The six arithmetic operations: the adder's operands, and its result as an integer (R121) -/

variable {o : Shifted}

theorem arithmetic_of_dpSub (h : exec i s = .next (dpSub o s)) :
    arithmetic i s (addWithCarry s.inp.rn (~~~o.value) true) (s.inp.rn.toNat - o.value.toNat) :=
  arithmetic_of_exec (subtractionIsNotBorrow _ _ s.nzcv.c _ _ _ (.inl ⟨rfl, rfl, rfl⟩)).1 h

theorem arithmetic_of_dpSbc (h : exec i s = .next (dpSbc o s)) :
    arithmetic i s (addWithCarry s.inp.rn (~~~o.value) s.nzcv.c)
      (s.inp.rn.toNat - o.value.toNat - (1 - s.nzcv.c.toNat)) :=
  arithmetic_of_exec (subtractionIsNotBorrow _ _ _ _ _ _ (.inr (.inl ⟨rfl, rfl, rfl⟩))).1 h

theorem arithmetic_of_dpRsb (h : exec i s = .next (dpRsb o s)) :
    arithmetic i s (addWithCarry (~~~s.inp.rn) o.value true) (o.value.toNat - s.inp.rn.toNat) :=
  arithmetic_of_exec (subtractionIsNotBorrow _ _ s.nzcv.c _ _ _ (.inr (.inr (.inl ⟨rfl, rfl, rfl⟩)))).1 h

theorem arithmetic_of_dpRsc (h : exec i s = .next (dpRsc o s)) :
    arithmetic i s (addWithCarry (~~~s.inp.rn) o.value s.nzcv.c)
      (o.value.toNat - s.inp.rn.toNat - (1 - s.nzcv.c.toNat)) :=
  arithmetic_of_exec (subtractionIsNotBorrow _ _ _ _ _ _ (.inr (.inr (.inr ⟨rfl, rfl, rfl⟩)))).1 h

theorem arithmetic_of_dpAdd (h : exec i s = .next (dpAdd o s)) :
    arithmetic i s (addWithCarry s.inp.rn o.value false) (s.inp.rn.toNat + o.value.toNat) :=
  arithmetic_of_exec (by simpa using addWithCarry_result_eq_unsigned s.inp.rn o.value false) h

theorem arithmetic_of_dpAdc (h : exec i s = .next (dpAdc o s)) :
    arithmetic i s (addWithCarry s.inp.rn o.value s.nzcv.c)
      (s.inp.rn.toNat + o.value.toNat + s.nzcv.c.toNat) :=
  arithmetic_of_exec (addWithCarry_result_eq_unsigned ..) h

end Commands

end Sys2Proof.Machine
end

section
/-! SUPPORT. The commands of groups DPR and DPRS (spec/42_dp_register.md R140 to R163): their words, their operand 2,
and what each answers. -/

namespace Sys2Proof.Machine

open Sys2Proof.Claims

/-! ## The words (R62, R63) -/

/-- The word `base | type<<12 | amt` has its group and its `op` in the base. -/
theorem shiftWord_eq_cmdOf {base amt : Nat} {grp op : BitVec 4} (type : ShiftType)
    (hbase : base = (grp.toNat * 16 + op.toNat) * 2 ^ 16) (hamt : amt < 256) :
    shiftWord base type amt = cmdOf grp op (shiftCode type) (BitVec.ofNat 12 amt) := by
  have hgrp := grp.isLt
  have hop := op.isLt
  rw [eq_cmdOf_iff]
  simp only [← BitVec.toNat_inj, toNat_grpOf, toNat_opOf, toNat_modOf, toNat_argOf, shiftWord, BitVec.toNat_ofNat]
  cases type <;> simp [typeCode, shiftCode] <;> omega

/-- A shift word decodes to the command whose encoding has its fields. -/
theorem decode_shiftWord {i : Instr} {base amt : Nat} {grp op : BitVec 4} {type : ShiftType}
    (hi : encode i = cmdOf grp op (shiftCode type) (BitVec.ofNat 12 amt)) (hfit : i.wellFormed = true)
    (hbase : base = (grp.toNat * 16 + op.toNat) * 2 ^ 16) (hamt : amt < 256) :
    decode (shiftWord base type amt) = .ok i := by
  rw [shiftWord_eq_cmdOf type hbase hamt, ← hi]
  exact decodeInvertsEncode i hfit

/-! ## Operand 2 with a register-specified amount (R125) -/

theorem registerAmount_eq_mod (s : State) : registerAmount s = s.inp.rs.toNat % 256 :=
  BitVec.extractLsb'_toNat ..

theorem withRegister_registerOperand2 {type : ShiftType} {s : State} {k : Shifted → State → State} :
    withRegister type s k = .next (k (registerOperand2 type s) s) := by
  rw [withRegister_eq, registerOperand, registerAmount_eq_mod, registerOperand2]

/-! ## The commands -/

/-- Settles O46: below 32 the amount check passes and each command answers its result, from 32 on it raises its error. -/
theorem literalBitwiseCommands : Obligations.LiteralBitwiseCommands := by
  refine fun type amt s => ⟨fun hamt => ?_, fun hamt => ?_, fun hamt => ?_⟩
  · and_intros <;> exact bitwise_of_exec (withLiteral_of_lt hamt)
  · and_intros <;> exact raises_of_argumentError (checkAmount_of_ge hamt)
  · and_intros <;> exact decode_shiftWord rfl (decide_eq_true hamt) rfl hamt

/-- Settles O47: below 32 each command is its operation on the shifted `rm`, from 32 on it raises the error of the check. -/
theorem literalArithmeticCommands : Obligations.LiteralArithmeticCommands := by
  refine fun type amt s => ⟨fun hamt => ?_, fun hamt => ?_, fun hamt => ?_⟩
  · exact ⟨arithmetic_of_dpSub (withLiteral_of_lt hamt), arithmetic_of_dpRsb (withLiteral_of_lt hamt),
      arithmetic_of_dpAdd (withLiteral_of_lt hamt), arithmetic_of_dpAdc (withLiteral_of_lt hamt),
      arithmetic_of_dpSbc (withLiteral_of_lt hamt), arithmetic_of_dpRsc (withLiteral_of_lt hamt)⟩
  · and_intros <;> exact raises_of_argumentError (checkAmount_of_ge hamt)
  · and_intros <;> exact decode_shiftWord rfl (decide_eq_true hamt) rfl hamt

/-- Settles O48: no amount is checked, so each command answers its result on the operand 2 of R125. -/
theorem registerBitwiseCommands : Obligations.RegisterBitwiseCommands := by
  intro type s
  refine ⟨?_, ?_, ?_, ?_, ?_, ?_, ?words⟩
  case words => and_intros <;> exact decode_shiftWord rfl rfl rfl (by decide)
  all_goals exact bitwise_of_exec withRegister_registerOperand2

/-- Settles O49: no amount is checked, so each command is its operation on the operand 2 of R125. -/
theorem registerArithmeticCommands : Obligations.RegisterArithmeticCommands := by
  refine fun type s => ⟨arithmetic_of_dpSub withRegister_registerOperand2,
    arithmetic_of_dpRsb withRegister_registerOperand2, arithmetic_of_dpAdd withRegister_registerOperand2,
    arithmetic_of_dpAdc withRegister_registerOperand2, arithmetic_of_dpSbc withRegister_registerOperand2,
    arithmetic_of_dpRsc withRegister_registerOperand2, ?words⟩
  and_intros <;> exact decode_shiftWord rfl rfl rfl (by decide)

end Sys2Proof.Machine
end

section
/-! SUPPORT. The commands of groups DPI and ADR (spec/43_dp_immediate.md R180 to R194): their words, what each answers
on the expanded immediate, and the base of an address. -/

namespace Sys2Proof.Machine

open Sys2Proof.Claims

/-! ## The words (R64, R65) -/

theorem decode_of_encode_eq {i : Instr} {c : Cmd} (hfit : i.wellFormed = true) (hc : encode i = c) : decode c = .ok i :=
  hc ▸ decodeInvertsEncode i hfit

/-! ## Group DPI -/

/-- Settles O50: no immediate is an error, so each command answers its result on the operand 2 of R126. -/
theorem immediateBitwiseCommands : Obligations.ImmediateBitwiseCommands := by
  refine ⟨fun s => ?results, ?words⟩
  case results => and_intros <;> exact bitwise_of_exec (withImmediate_eq ..)
  case words => and_intros <;> exact decode_of_encode_eq rfl rfl

/-- Settles O51: no immediate is an error, so each command is its operation on the operand 2 of R126. -/
theorem immediateArithmeticCommands : Obligations.ImmediateArithmeticCommands := by
  refine ⟨fun s => ⟨arithmetic_of_dpSub (withImmediate_eq ..), arithmetic_of_dpRsb (withImmediate_eq ..),
    arithmetic_of_dpAdd (withImmediate_eq ..), arithmetic_of_dpAdc (withImmediate_eq ..),
    arithmetic_of_dpSbc (withImmediate_eq ..), arithmetic_of_dpRsc (withImmediate_eq ..)⟩, ?words⟩
  and_intros <;> exact decode_of_encode_eq rfl rfl

/-! ## The base of an address (R192) -/

theorem toNat_and_not_three (x : Word) : (x &&& ~~~3#32).toNat = x.toNat - x.toNat % 4 := by
  have hmask : ~~~3#32 = BitVec.allOnes 32 <<< 2 := by decide
  have hx := x.isLt
  rw [hmask, ← BitVec.shiftLeft_ushiftRight, BitVec.toNat_shiftLeft, BitVec.toNat_ushiftRight,
    Nat.shiftRight_eq_div_pow, Nat.shiftLeft_eq]
  omega

theorem toNat_adrBase (s : State) :
    (adrBase s).toNat =
      if s.params.adrAlignsBase then s.inp.rn.toNat - s.inp.rn.toNat % 4 else s.inp.rn.toNat := by
  rw [adrBase, apply_ite BitVec.toNat, toNat_and_not_three]

/-- An aligned `rn` is the base under either setting. -/
theorem adrBase_of_aligned {s : State} (h : s.inp.rn.toNat % 4 = 0) : adrBase s = s.inp.rn := by
  rw [← BitVec.toNat_inj, toNat_adrBase, h, Nat.sub_zero, ite_self]

/-! ## Addresses modulo 2^32 (R193, R194) -/

theorem trunc32_natCast (n : Nat) : trunc32 n = BitVec.ofNat 32 (n % 2 ^ 32) := by
  rw [trunc32, BitVec.ofInt_natCast, ← BitVec.toNat_inj, BitVec.toNat_ofNat, BitVec.toNat_ofNat, Nat.mod_mod]

theorem trunc32_add_two_pow (z : Int) : trunc32 (z + 2 ^ 32) = trunc32 z :=
  (BitVec.ofInt_add z (2 ^ 32)).trans (BitVec.add_zero _)

theorem trunc32_sum (a b : Nat) : trunc32 (a + b) = BitVec.ofNat 32 ((a + b) % 2 ^ 32) := by
  rw [← Nat.cast_add, trunc32_natCast]

/-- A word is subtracted in the natural numbers once `2^32` is added first. -/
theorem trunc32_difference (a : Nat) (x : Word) :
    trunc32 (a - x.toNat) = BitVec.ofNat 32 ((a + 2 ^ 32 - x.toNat) % 2 ^ 32) := by
  have hx := x.isLt
  have hcast : ((a + 2 ^ 32 - x.toNat : Nat) : Int) = a - x.toNat + 2 ^ 32 := by omega
  rw [← trunc32_natCast, hcast, trunc32_add_two_pow]

/-! ## Group ADR -/

theorem completes_adrAdd (s : State) :
    completes .adrAdd s (some (trunc32 ((adrBase s).toNat + (immediateOperand s).value.toNat))) none none := rfl

theorem completes_adrSub (s : State) :
    completes .adrSub s (some (trunc32 ((adrBase s).toNat - (immediateOperand s).value.toNat))) none none := rfl

theorem outputs_of_completes {i : Instr} {s : State} {r h : Option Word} {f : Option FlagBits}
    (hc : completes i s r h f) : outputs i s = some ⟨r, h, f, none⟩ :=
  outputs_of_exec hc

/-- Settles O52: the base is the one of R192 as a number, and for an aligned `rn` it does not depend on the setting. -/
theorem addressCommands : Obligations.AddressCommands := by
  refine ⟨fun s => ?_, fun s b h => ?_, decode_of_encode_eq rfl rfl, decode_of_encode_eq rfl rfl⟩
  · simp only [← toNat_adrBase, ← trunc32_sum, ← trunc32_difference]
    exact ⟨completes_adrAdd s, completes_adrSub s⟩
  · have hbase : adrBase { s with params := { s.params with adrAlignsBase := b } } = adrBase s := by
      rw [adrBase_of_aligned h]
      exact adrBase_of_aligned h
    simp only [outputs_of_completes (completes_adrAdd _), outputs_of_completes (completes_adrSub _), hbase]
    exact ⟨rfl, rfl⟩

end Sys2Proof.Machine
end

section
/-! SUPPORT. Group MUL (spec/44_multiply.md R210 to R221): the halves of a truncated integer, what each multiply answers,
and the laws between them. -/

namespace Sys2Proof.Machine

open Sys2Proof.Claims

/-! ## Truncations and their halves (R9, R210) -/

theorem toNat_trunc32 (z : Int) : (trunc32 z).toNat = (z % 2 ^ 32).toNat := BitVec.toNat_ofInt z

theorem toNat_trunc64 (z : Int) : (trunc64 z).toNat = (z % 2 ^ 64).toNat := BitVec.toNat_ofInt z

theorem trunc32_congr {y z : Int} (h : y % 2 ^ 32 = z % 2 ^ 32) : trunc32 y = trunc32 z := by
  rw [← BitVec.toNat_inj, toNat_trunc32, toNat_trunc32, h]

/-- A 32-bit integer is its own truncation, so truncating a subtrahend first changes nothing. -/
theorem trunc32_sub_toNat_trunc32 (a z : Int) : trunc32 (a - (trunc32 z).toNat) = trunc32 (a - z) := by
  apply trunc32_congr
  rw [toNat_trunc32]
  omega

theorem toNat_lowHalf (p : BitVec 64) : (lowHalf p).toNat = p.toNat % 2 ^ 32 := by
  rw [lowHalf, BitVec.extractLsb'_toNat, Nat.shiftRight_zero]

theorem toNat_highHalf (p : BitVec 64) : (highHalf p).toNat = p.toNat / 2 ^ 32 := by
  rw [highHalf, BitVec.extractLsb'_toNat, Nat.shiftRight_eq_div_pow]
  exact Nat.mod_eq_of_lt (Nat.div_lt_of_lt_mul p.isLt)

theorem lowHalf_eq_ofNat (p : BitVec 64) : lowHalf p = BitVec.ofNat 32 (p.toNat % 2 ^ 32) := by
  rw [← toNat_lowHalf, BitVec.ofNat_toNat, BitVec.setWidth_eq]

theorem highHalf_eq_ofNat (p : BitVec 64) : highHalf p = BitVec.ofNat 32 (p.toNat / 2 ^ 32) := by
  rw [← toNat_highHalf, BitVec.ofNat_toNat, BitVec.setWidth_eq]

theorem lowHalf_trunc64 (z : Int) : lowHalf (trunc64 z) = trunc32 z := by
  rw [← BitVec.toNat_inj, toNat_lowHalf, toNat_trunc64, toNat_trunc32]
  omega

theorem highHalf_trunc64 (z : Int) : highHalf (trunc64 z) = trunc32 (z / 2 ^ 32) := by
  rw [← BitVec.toNat_inj, toNat_highHalf, toNat_trunc64, toNat_trunc32]
  omega

/-! ## The candidate sets (R211) -/

/-- The flags of the two halves are those of the 64-bit value. -/
theorem packFlags_flags64 (p : BitVec 64) (f : Nzcv) :
    packFlags (flags64 (highHalf p) (lowHalf p) f) =
      flagSet (decide (2 ^ 63 ≤ p.toNat)) (decide (p.toNat = 0)) f.c f.v := by
  have hn : (highHalf p).getLsbD 31 = decide (2 ^ 63 ≤ p.toNat) := by
    rw [getLsbD_31_eq_msb, BitVec.msb_eq_decide, toNat_highHalf, decide_eq_decide]
    omega
  have hzero (x : Word) : x = 0 ↔ x.toNat = 0 := BitVec.toNat_inj.symm
  have hz : highHalf p = 0 ∧ lowHalf p = 0 ↔ p.toNat = 0 := by
    rw [hzero, hzero, toNat_highHalf, toNat_lowHalf]
    omega
  simp only [packFlags_eq_flagSet, flags64, hn, hz]

section Answers

variable {i : Instr} {s : State} {value : Int}

theorem completes_of_answerMultiply {r : Word} (h : exec i s = .next (answerMultiply r s)) :
    completes i s (some r) none (some (candidate r s.nzcv.c s.nzcv.v)) := by
  rw [completes, h, ← packFlags_resultFlags]
  rfl

theorem widening_of_respondPairFlags (h : exec i s = .next (respondPairFlags (trunc64 value) s)) :
    widening i s value true := by
  rw [widening, completes, h, ← toNat_trunc64, ← lowHalf_eq_ofNat, ← highHalf_eq_ofNat, ← packFlags_flags64]
  rfl

theorem widening_of_respondPair (h : exec i s = .next (respondPair (trunc64 value) s)) :
    widening i s value false := by
  rw [widening, completes, h, ← toNat_trunc64, ← lowHalf_eq_ofNat, ← highHalf_eq_ofNat]
  rfl

theorem widening_congr {value' : Int} {reports : Bool} (hmod : value % 2 ^ 64 = value' % 2 ^ 64)
    (h : widening i s value reports) : widening i s value' reports := by
  rw [widening, ← hmod]
  exact h

end Answers

/-! ## The 32-bit multiplies (R213, R214, R216) -/

theorem completes_mul (s : State) :
    completes .mul s (some (trunc32 (productUnsigned s))) none
      (some (candidate (trunc32 (productUnsigned s)) s.nzcv.c s.nzcv.v)) :=
  completes_of_answerMultiply rfl

theorem completes_mla (s : State) :
    completes .mla s (some (trunc32 (productUnsigned s + s.inp.ra.toNat))) none
      (some (candidate (trunc32 (productUnsigned s + s.inp.ra.toNat)) s.nzcv.c s.nzcv.v)) :=
  completes_of_answerMultiply rfl

theorem completes_mls (s : State) :
    completes .mls s (some (trunc32 (s.inp.ra.toNat - productUnsigned s))) none
      (if s.params.mlsReportsFlags then
        some (candidate (trunc32 (s.inp.ra.toNat - productUnsigned s)) s.nzcv.c s.nzcv.v) else none) := by
  cases h : s.params.mlsReportsFlags with
  | true => exact completes_of_answerMultiply (congrArg Host.Outcome.next (if_pos h))
  | false => exact congrArg Host.Outcome.next (if_neg (ne_true_of_eq_false h))

/-- Settles O53: each result is its integer truncated, and only the flags of MLS depend on the setting. -/
theorem shortMultiplyCommands : Obligations.ShortMultiplyCommands := by
  refine ⟨fun s => ?_, decode_of_encode_eq rfl rfl, decode_of_encode_eq rfl rfl, decode_of_encode_eq rfl rfl⟩
  simp only [← BitVec.ofInt_natCast, Nat.cast_add, Nat.cast_mul]
  exact ⟨completes_mul s, completes_mla s, completes_mls s⟩

/-! ## The 64-bit multiplies (R215, R217 to R220) -/

/-- Settles O54: each value is answered in its two halves. -/
theorem unsignedWideMultiplyCommands : Obligations.UnsignedWideMultiplyCommands :=
  ⟨fun _ => ⟨widening_of_respondPairFlags rfl, widening_of_respondPairFlags rfl, widening_of_respondPair rfl⟩,
    decode_of_encode_eq rfl rfl, decode_of_encode_eq rfl rfl, decode_of_encode_eq rfl rfl⟩

/-- The two readings of the accumulator differ by `2^64` or not at all. -/
theorem accumulator_congr (z : Int) (s : State) :
    (z + accumulatorSigned s) % 2 ^ 64 = (z + accumulatorUnsigned s) % 2 ^ 64 := by
  rw [accumulatorSigned, accumulatorUnsigned]
  split <;> omega

/-- Settles O55: SMLAL answers with the signed accumulator, and modulo `2^64` the unsigned one is the same. -/
theorem signedWideMultiplyCommands : Obligations.SignedWideMultiplyCommands := by
  refine ⟨fun s => ?_, decode_of_encode_eq rfl rfl, decode_of_encode_eq rfl rfl⟩
  have hsigned : widening .smlal s (productSigned s + accumulatorSigned s) true := widening_of_respondPairFlags rfl
  exact ⟨widening_of_respondPairFlags rfl, widening_congr (accumulator_congr _ s) hsigned, hsigned⟩

/-! ## The laws between the commands (R221) -/

/-- `s` with the addend of MLA at 0. -/
def State.withZeroAddend (s : State) : State := { s with inp := { s.inp with ra := 0 } }

/-- `s` with the accumulator at 0. -/
def State.withZeroAccumulator (s : State) : State := { s with inp := { s.inp with rdhi := 0, rdlo := 0 } }

theorem accumulatorUnsigned_withZeroAccumulator (s : State) : accumulatorUnsigned s.withZeroAccumulator = 0 := by
  simp [accumulatorUnsigned, State.withZeroAccumulator, joined]

theorem accumulatorSigned_withZeroAccumulator (s : State) : accumulatorSigned s.withZeroAccumulator = 0 := by
  simp [accumulatorSigned, State.withZeroAccumulator, joined]

theorem outputs_mla_zeroAddend (s : State) : outputs .mla s.withZeroAddend = outputs .mul s := by
  have hvalue : productUnsigned s + s.withZeroAddend.inp.ra.toNat = productUnsigned s := Int.add_zero _
  exact congrArg (fun z => some (answerMultiply (trunc32 z) s).out) hvalue

theorem outputs_umlal_zeroAccumulator (s : State) : outputs .umlal s.withZeroAccumulator = outputs .umull s := by
  have hvalue : productUnsigned s + accumulatorUnsigned s.withZeroAccumulator = productUnsigned s := by
    rw [accumulatorUnsigned_withZeroAccumulator, Int.add_zero]
  exact congrArg (fun z => some (respondPairFlags (trunc64 z) s).out) hvalue

theorem outputs_smlal_zeroAccumulator (s : State) : outputs .smlal s.withZeroAccumulator = outputs .smull s := by
  have hvalue : productSigned s + accumulatorSigned s.withZeroAccumulator = productSigned s := by
    rw [accumulatorSigned_withZeroAccumulator, Int.add_zero]
  exact congrArg (fun z => some (respondPairFlags (trunc64 z) s).out) hvalue

theorem outputs_umaal_zeroAccumulator (s : State) :
    outputs .umaal s.withZeroAccumulator = some (respondPair (trunc64 (productUnsigned s)) s).out := by
  have hvalue : productUnsigned s + s.withZeroAccumulator.inp.rdhi.toNat + s.withZeroAccumulator.inp.rdlo.toNat =
      productUnsigned s := (Int.add_zero _).trans (Int.add_zero _)
  exact congrArg (fun z => some (respondPair (trunc64 z) s).out) hvalue

/-- `sint` as `uint` less the weight of the sign bit. -/
theorem toInt_eq_toNat_sub_sign (x : Word) : x.toInt = x.toNat - if x.getLsbD 31 then 2 ^ 32 else 0 := by
  rw [BitVec.toInt_eq_msb_cond, getLsbD_31_eq_msb]
  split <;> simp

/-- What a negative operand takes off the high half of the unsigned product: the other operand. -/
def signCorrection (s : State) : Int :=
  (if s.inp.rn.getLsbD 31 then (s.inp.rm.toNat : Int) else 0) + if s.inp.rm.getLsbD 31 then (s.inp.rn.toNat : Int) else 0

/-- Modulo `2^64` the signed product is the unsigned one with its high half corrected. -/
theorem productSigned_congr (s : State) :
    productSigned s % 2 ^ 64 = (productUnsigned s - 2 ^ 32 * signCorrection s) % 2 ^ 64 := by
  rw [productSigned, productUnsigned, signCorrection, toInt_eq_toNat_sub_sign, toInt_eq_toNat_sub_sign]
  split <;> split
  · -- Both operands negative: the weights of the two sign bits multiply to `2^64`.
    ring_nf
    omega
  all_goals ring_nf

theorem toNat_mul_add_add_le (a b c d : Word) : a.toNat * b.toNat + c.toNat + d.toNat ≤ 2 ^ 64 - 1 := by
  have hproduct : a.toNat * b.toNat ≤ (2 ^ 32 - 1) * (2 ^ 32 - 1) :=
    Nat.mul_le_mul (Nat.le_sub_one_of_lt a.isLt) (Nat.le_sub_one_of_lt b.isLt)
  have hc := c.isLt
  have hd := d.isLt
  omega

theorem trunc32_productSigned (s : State) : trunc32 (productSigned s) = trunc32 (productUnsigned s) := by
  have hmod := productSigned_congr s
  exact trunc32_congr (by omega)

theorem highHalf_productSigned (s : State) :
    highHalf (trunc64 (productSigned s)) =
      trunc32 ((highHalf (trunc64 (productUnsigned s))).toNat - signCorrection s) := by
  have hmod := productSigned_congr s
  rw [highHalf_trunc64, highHalf_trunc64, toNat_trunc32]
  exact trunc32_congr (by omega)

/-- Settles O56: a zero addend leaves the product, and the signed product is the unsigned one corrected above. -/
theorem multiplyLaws : Obligations.MultiplyLaws := by
  intro s
  refine ⟨_, _, _, outputs_of_exec rfl, outputs_of_exec rfl, outputs_of_exec rfl, ?lowUnsigned, ?lowSigned,
    (outputs_mla_zeroAddend s).trans (outputs_of_exec rfl), ⟨_, _, outputs_of_completes (completes_mls s), rfl, ?mls⟩,
    (outputs_umlal_zeroAccumulator s).trans (outputs_of_exec rfl),
    (outputs_smlal_zeroAccumulator s).trans (outputs_of_exec rfl), outputs_umaal_zeroAccumulator s,
    toNat_mul_add_add_le .., _, rfl, ?high⟩
  case lowUnsigned => exact congrArg some (lowHalf_trunc64 _).symm
  case lowSigned => exact congrArg some ((lowHalf_trunc64 _).trans (trunc32_productSigned s)).symm
  case mls => exact congrArg some (trunc32_sub_toNat_trunc32 _ _).symm
  case high =>
    rw [Int.sub_sub]
    exact congrArg some (highHalf_productSigned s)

end Sys2Proof.Machine
end

section
/-! SUPPORT. Group FLAG (spec/45_flags_commit.md R230): what the `nzcv` output shows once a flag set is committed. -/

namespace Sys2Proof.Machine

@[simp] theorem nzcvPort_commitFlags (f : Nzcv) (s : State) : nzcvPort (commitFlags f s) = packFlags f := rfl

/-- Settles O57: COMMIT answers the state with `fin` unpacked into the register, and packing gives `fin` back. -/
theorem commitReplacesTheFlags : Obligations.CommitReplacesTheFlags := by
  refine ⟨fun s => ⟨commitFlags (unpackFlags s.inp.fin) s, exec_commit s, rfl, ?shown⟩, decode_commit⟩
  case shown => rw [nzcvPort_commitFlags, packFlags_unpackFlags]

end Sys2Proof.Machine
end

section
/-! SUPPORT. Errors (spec/60_exceptions.md R240 to R248, R256): the one error a command word raises, what a caller that
halts makes of it, what it leaves for the next transaction, and what one block does to the others. -/

namespace Sys2Proof.Machine

open Sys2Proof.Claims

/-! ## The error of a command word (R241 to R245, R248) -/

/-- The error a transaction with the command word `c` raises, if it raises one: decoding comes before the argument
check. -/
def commandError (c : Cmd) : Option ErrorKind :=
  match decode c with
  | .error _ => some .reservedCommand
  | .ok i => argumentError i

theorem commandError_of_error {c : Cmd} {e : DecodeError} (h : decode c = .error e) :
    commandError c = some .reservedCommand := by
  simp [commandError, h]

theorem commandError_of_ok {c : Cmd} {i : Instr} (h : decode c = .ok i) : commandError c = argumentError i := by
  simp [commandError, h]

theorem runSampled_of_argumentError {s : State} {i : Instr} {e : ErrorKind} (h : decode s.inp.cmd = .ok i)
    (he : argumentError i = some e) : runSampled s = .next (raiseError e s) :=
  (runSampled_ok h).trans (exec_of_argumentError he)

theorem runSampled_of_no_argumentError {s : State} {i : Instr} (h : decode s.inp.cmd = .ok i)
    (he : argumentError i = none) : ∃ t, runSampled s = .next t ∧ t.out.err = none := by
  obtain ⟨t, ht, herr, -⟩ := exec_of_no_argumentError s he
  exact ⟨t, (runSampled_ok h).trans ht, herr⟩

/-- Every transaction on sampled ports completes, and `err` shows the error of its command word. -/
theorem runSampled_completes (s : State) : ∃ t, runSampled s = .next t ∧ t.out.err = commandError s.inp.cmd := by
  cases hd : decode s.inp.cmd with
  | error e => exact ⟨_, runSampled_error hd, (commandError_of_error hd).symm⟩
  | ok i =>
    rw [commandError_of_ok hd]
    cases he : argumentError i with
    | some e => exact ⟨_, runSampled_of_argumentError hd he, rfl⟩
    | none => exact runSampled_of_no_argumentError hd he

/-- Settles O27: decoding, then the argument check, and each raises by `raiseError`. -/
theorem raisingChangesOnlyErr : Obligations.RaisingChangesOnlyErr :=
  ⟨fun _ ⟨_, hd⟩ => runSampled_error hd, fun _ _ _ hd he => runSampled_of_argumentError hd he,
    fun _ _ hd he => runSampled_of_no_argumentError hd he, rfl, rfl, rfl, rfl, rfl⟩

/-! ## The causes on the bits of the word (R241 to R244) -/

theorem checkAmount_eq_some_iff {amt : Nat} {e : ErrorKind} :
    checkAmount amt = some e ↔ 32 ≤ amt ∧ e = .shiftAmountOutOfRange := by
  simp [checkAmount, eq_comm]

theorem argumentError_ne_reservedCommand (i : Instr) : argumentError i ≠ some .reservedCommand := by
  cases i with
  | and | eor | sub | rsb | add | adc | sbc | rsc | orr | mov | bic | mvn => simp [argumentError, checkAmount_eq_some_iff]
  | extractBits | writeBits => exact fun h => nomatch (checkBounds_eq_some h).1
  | _ => nofun

theorem commandError_eq_reservedCommand_iff {c : Cmd} :
    commandError c = some .reservedCommand ↔ ∃ e, decode c = .error e := by
  cases hd : decode c with
  | error e => simp [commandError_of_error hd]
  | ok i => simp [commandError_of_ok hd, argumentError_ne_reservedCommand i]

theorem commandError_ne_unknownShiftType (c : Cmd) : commandError c ≠ some .unknownShiftType := by
  cases hd : decode c with
  | error e => simp [commandError_of_error hd]
  | ok i => simp [commandError_of_ok hd, argumentError_ne_unknownShiftType i]

/-- A word is reserved exactly when no row of the opcode table selects it (R76, R244). -/
theorem exists_decode_error_iff_no_row {c : Cmd} :
    (∃ e, decode c = .error e) ↔ ∀ r ∈ opcodeTable, c &&& r.mask ≠ r.pattern := by
  obtain ⟨hok, herror⟩ := decoderFollowsOpcodeTable c
  cases hd : decode c with
  | error e => exact iff_of_true ⟨e, rfl⟩ (herror e hd).1
  | ok i =>
    obtain ⟨r, hr, -, hmatch, -⟩ := hok i hd
    exact iff_of_false nofun fun hnone => hnone r hr hmatch

theorem argumentError_dprCommand {op : BitVec 4} {command : ShiftType → Nat → Instr} (h : dprCommand op = some command)
    (type : ShiftType) (amt : Nat) : argumentError (command type amt) = checkAmount amt := by
  unfold dprCommand at h
  split at h <;> cases h
  all_goals rfl

theorem argumentError_dprsCommand {op : BitVec 4} {command : ShiftType → Instr} (h : dprsCommand op = some command)
    (type : ShiftType) : argumentError (command type) = none := by
  unfold dprsCommand at h
  split at h <;> cases h
  all_goals rfl

theorem argumentError_fixedCommand : ∀ grp op, ∀ i ∈ fixedCommand grp op, argumentError i = none := by
  decide

/-! ## The fields of a word of group BITS (R68) -/

/-- The width of the container that the word selects. -/
def widthOf (c : Cmd) : Nat := if c.toNat / 2 ^ 12 % 2 = 0 then 32 else 12

theorem width_of_decodeContainer {c : Cmd} {w : Container} (h : decodeContainer (modOf c) = some w) :
    Container.width w = widthOf c := by
  have hmod : c.toNat / 2 ^ 12 % 16 = (containerCode w).toNat := by
    rw [← toNat_modOf, decodeContainer_eq_some.mp h]
  cases w with
  | word =>
    change _ = 0 at hmod
    exact (if_pos (by omega)).symm
  | imm12 =>
    change _ = 1 at hmod
    exact (if_neg (by omega)).symm

theorem toNat_argOf_start (c : Cmd) : ((argOf c).extractLsb' 0 6).toNat = c.toNat % 64 := by
  rw [BitVec.extractLsb'_toNat, toNat_argOf, Nat.shiftRight_zero]
  omega

theorem toNat_argOf_stop (c : Cmd) : ((argOf c).extractLsb' 6 6).toNat = c.toNat / 64 % 64 := by
  rw [BitVec.extractLsb'_toNat, toNat_argOf, Nat.shiftRight_eq_div_pow]
  omega

theorem toNat_grp_op (c : Cmd) : c.toNat / 2 ^ 16 = 16 * (grpOf c).toNat + (opOf c).toNat := by
  rw [toNat_grpOf, toNat_opOf]
  omega

/-- The argument check of a decoded word, on the number of the word: group DPR checks its amount, EXTRACTBITS and
WRITEBITS their bounds, and no other command has a check. -/
theorem argumentError_cases {c : Cmd} {i : Instr} (h : decode c = .ok i) :
    (c.toNat / 2 ^ 20 = 0 ∧ argumentError i = checkAmount (c.toNat % 256)) ∨
    ((c.toNat / 2 ^ 16 = 0x60 ∨ c.toNat / 2 ^ 16 = 0x61) ∧
      argumentError i = checkBounds (widthOf c) (c.toNat % 64) (c.toNat / 64 % 64)) ∨
    (c.toNat / 2 ^ 20 ≠ 0 ∧ c.toNat / 2 ^ 16 ≠ 0x60 ∧ c.toNat / 2 ^ 16 ≠ 0x61 ∧ argumentError i = none) := by
  have hgrpOp := toNat_grp_op c
  rw [← toNat_grpOf, hgrpOp]
  rcases grp_cases (grpOf c) with hgrp | hgrp | hgrp | hgrp | hgrp
  · rw [decode_of_dpr hgrp] at h
    obtain ⟨command, type, hop, -, harg, rfl⟩ := decodeDpr_eq_ok.mp h
    have hamt : (argOf c).toNat = c.toNat % 256 := by
      rw [toNat_argOf] at harg ⊢
      omega
    exact .inl ⟨congrArg BitVec.toNat hgrp, hamt ▸ argumentError_dprCommand hop type _⟩
  · rw [decode_of_dprs hgrp] at h
    obtain ⟨command, type, hop, -, -, rfl⟩ := decodeDprs_eq_ok.mp h
    have hnum : (grpOf c).toNat = 1 := congrArg BitVec.toNat hgrp
    exact .inr (.inr ⟨by omega, by omega, by omega, argumentError_dprsCommand hop type⟩)
  · rw [decode_of_fixed hgrp] at h
    obtain ⟨hi, -, -⟩ := decodeFixed_eq_ok.mp h
    exact .inr (.inr ⟨by omega, by omega, by omega, argumentError_fixedCommand _ _ _ hi⟩)
  · rw [decode_of_bits hgrp] at h
    have hnum : (grpOf c).toNat = 6 := congrArg BitVec.toNat hgrp
    obtain ⟨w, hw, hi⟩ := decodeBits_eq_ok.mp h
    rw [← width_of_decodeContainer hw, ← toNat_argOf_start, ← toNat_argOf_stop, hnum]
    rcases hi with ⟨hop, rfl⟩ | ⟨hop, rfl⟩ | ⟨hop, -, -, rfl⟩
    · exact .inr (.inl ⟨.inl (by rw [hop]; rfl), rfl⟩)
    · exact .inr (.inl ⟨.inr (by rw [hop]; rfl), rfl⟩)
    · have hopNum : (opOf c).toNat = 2 := congrArg BitVec.toNat hop
      exact .inr (.inr ⟨by omega, by omega, by omega, rfl⟩)
  · rw [decode_of_reservedGroup hgrp] at h
    cases h

theorem commandError_eq_bitRange_iff {c : Cmd} :
    commandError c = some .bitRange ↔
      (∃ i, decode c = .ok i) ∧ (c.toNat / 2 ^ 16 = 0x60 ∨ c.toNat / 2 ^ 16 = 0x61) ∧
        (c.toNat % 64 > c.toNat / 64 % 64 ∨ c.toNat / 64 % 64 > widthOf c) := by
  cases hd : decode c with
  | error e => simp [commandError_of_error hd]
  | ok i =>
    rw [commandError_of_ok hd, and_iff_right ⟨i, rfl⟩]
    rcases argumentError_cases hd with ⟨hgrp, he⟩ | ⟨hop, he⟩ | ⟨-, hextract, hwrite, he⟩
    · have hop : ¬ (c.toNat / 2 ^ 16 = 0x60 ∨ c.toNat / 2 ^ 16 = 0x61) := by omega
      exact iff_of_false (by simp [he, checkAmount_eq_some_iff]) fun h => hop h.1
    · rw [he, checkBounds_eq_bitRange_iff, and_iff_right hop]
    · exact iff_of_false (by simp [he]) fun h => h.1.elim hextract hwrite

theorem commandError_eq_shiftAmountOutOfRange_iff {c : Cmd} :
    commandError c = some .shiftAmountOutOfRange ↔
      (∃ i, decode c = .ok i) ∧ c.toNat / 2 ^ 20 = 0 ∧ 32 ≤ c.toNat % 256 := by
  cases hd : decode c with
  | error e => simp [commandError_of_error hd]
  | ok i =>
    rw [commandError_of_ok hd, and_iff_right ⟨i, rfl⟩]
    rcases argumentError_cases hd with ⟨hgrp, he⟩ | ⟨hop, he⟩ | ⟨hgrp, -, -, he⟩
    · rw [he, checkAmount_eq_some_iff, and_iff_left rfl, and_iff_right hgrp]
    · have hgrp : c.toNat / 2 ^ 20 ≠ 0 := by omega
      exact iff_of_false (fun h => nomatch (checkBounds_eq_some (he.symm.trans h)).1) fun h => hgrp h.1
    · exact iff_of_false (by simp [he]) fun h => hgrp h.1

/-- Settles O26: the transaction shows the error of its word, and each error of a word has its cause on the bits. -/
theorem errorsAreExactlyTheListedCauses : Obligations.ErrorsAreExactlyTheListedCauses := by
  intro s
  obtain ⟨t, ht, herr⟩ := runSampled_completes s
  refine ⟨t, ht, ?_⟩
  rw [herr]
  exact ⟨commandError_eq_bitRange_iff, commandError_eq_shiftAmountOutOfRange_iff, commandError_ne_unknownShiftType _,
    commandError_eq_reservedCommand_iff.trans exists_decode_error_iff_no_row⟩

/-! ## A caller that halts (R247, R273) -/

theorem haltingError_eq_some_iff {s : State} {e : ErrorKind} :
    haltingError s = some e ↔ s.params.errorDisposition = .halt ∧ s.out.err = some e := by
  unfold haltingError
  cases s.params.errorDisposition <;> simp

theorem runNext_ne_fault (s : State) (f : Fault) : runNext s ≠ .fault f := by
  unfold runNext
  split
  · nofun
  · split
    · nofun
    · next rest _ _ p _ =>
      obtain ⟨t, ht, -⟩ := runSampled_completes (present p rest s)
      simp [ht]

/-- Settles O12: the fault of a step is the caller's halt, for what the step runs never faults. -/
theorem onlyAHaltingCallerFaults : Obligations.OnlyAHaltingCallerFaults := by
  intro s e
  rw [← haltingError_eq_some_iff]
  cases hh : haltingError s with
  | some e' => simp [step_of_haltingError hh]
  | none => simp [step, hh, runNext_ne_fault]

/-- Under a caller that halts, a block that still steps has shown no error. -/
theorem err_of_step {s t : State} (hhalt : s.params.errorDisposition = .halt) (h : step s = .next t) :
    s.out.err = none := by
  obtain ⟨-, -, -, hh, -⟩ := step_cases h
  simpa [haltingError, hhalt] using hh

/-- The states of a run under a caller that halts: no error in any of them before the last. -/
theorem trace_of_halt (k : Nat) : ∀ {s s' : State}, s.params.errorDisposition = .halt →
    Sys2Proof.core.run (k + 1) s = .next s' → ∃ us, trace (k + 1) s = us ++ [s'] ∧ ∀ u ∈ us, u.out.err = none := by
  induction k with
  | zero =>
    intro s s' _ h
    obtain ⟨t, ht, hrun⟩ := run_succ_cases h
    rw [run_zero hrun]
    exact ⟨[], trace_succ 0 ht, List.forall_mem_nil _⟩
  | succ k ih =>
    intro s s' hhalt h
    obtain ⟨t, ht, hrun⟩ := run_succ_cases h
    have hhalt' : t.params.errorDisposition = .halt := (stepTakesOneTransaction s t ht).1 ▸ hhalt
    obtain ⟨v, hv, -⟩ := run_succ_cases hrun
    obtain ⟨us, htrace, herr⟩ := ih hhalt' hrun
    refine ⟨t :: us, by rw [trace_succ _ ht, htrace, List.cons_append], ?_⟩
    simpa using ⟨err_of_step hhalt' hv, herr⟩

/-- Settles O13: `trace_of_halt`, and a run of no steps passes through no state. -/
theorem haltingCallerEndsAtTheFirstError : Obligations.HaltingCallerEndsAtTheFirstError := by
  intro k s s' hhalt h
  cases k with
  | zero =>
    rw [run_zero h]
    simp [trace, faultedRun, finalRun]
  | succ k =>
    obtain ⟨us, htrace, herr⟩ := trace_of_halt k hhalt h
    have hfaulted : faultedRun (k + 1) s = s'.faulted := by
      simp +contextual [faultedRun, htrace, State.faulted, herr]
    refine ⟨?_, ?_, ?_⟩
    · simpa [htrace] using herr
    · simp [hfaulted, State.faulted, Option.isSome_iff_ne_none]
    · intro hfinal
      have hlast : (trace (k + 1) s).getLastD s = s' := by simp [htrace]
      rw [finalRun, hlast, hfaulted, hfinal]
      simp only [State.final, Bool.and_eq_true] at hfinal
      exact hfinal.2

/-! ## A failing transaction leaves no trace (R246) -/

/-- No command reads the outputs of the transaction before it. -/
theorem exec_respond_irrelevant (i : Instr) (o : OutPorts) (s : State) : exec i (respond o s) = exec i s := by
  cases i <;> rfl

theorem runSampled_respond (o : OutPorts) (s : State) : runSampled (respond o s) = runSampled s := by
  cases hd : decode s.inp.cmd with
  | error e =>
    rw [runSampled_error hd, runSampled_error (s := respond o s) hd]
    rfl
  | ok i => rw [runSampled_ok hd, runSampled_ok (s := respond o s) hd, exec_respond_irrelevant]

theorem WordDrive.sample_of_own {d : WordDrive} (h : d.own = true) (s u : State) : d.sample u = d.sample s := by
  cases d with
  | value => rfl
  | result | resulthi => cases h

theorem FlagDrive.sample_of_own {d : FlagDrive} {s u : State} (h : d.own = true) (hnzcv : u.nzcv = s.nzcv) :
    d.sample u = d.sample s := by
  cases d with
  | value => rfl
  | fout => cases h
  | nzcv => simp [nzcvPort, hnzcv]

/-- A transaction that drives no port from an output samples the caller's own values and the register. -/
theorem Transaction.sample_of_own {t : Transaction} {s u : State} (h : t.own = true) (hnzcv : u.nzcv = s.nzcv) :
    t.sample u = t.sample s := by
  simp only [Transaction.own, Bool.and_eq_true] at h
  obtain ⟨⟨⟨⟨⟨⟨hrn, hrm⟩, hrs⟩, hra⟩, hrdhi⟩, hrdlo⟩, hfin⟩ := h
  simp only [Transaction.sample, takePorts, WordDrive.sample_of_own hrn s u, WordDrive.sample_of_own hrm s u,
    WordDrive.sample_of_own hrs s u, WordDrive.sample_of_own hra s u, WordDrive.sample_of_own hrdhi s u,
    WordDrive.sample_of_own hrdlo s u, FlagDrive.sample_of_own hfin hnzcv]

/-- A transaction that shows an error has done nothing but show it. -/
theorem eq_raiseError_of_err {s u : State} (h : runSampled s = .next u) (herr : u.out.err ≠ none) :
    ∃ e, u = raiseError e s := by
  rcases runSampled_cases h with ⟨e, -, hu⟩ | ⟨i, he, hexec⟩
  · exact ⟨e, hu⟩
  · exact absurd (wellFormed_exec he hexec).2 herr

/-- Settles O14: the failing step leaves other ports and outputs, and the next transaction samples its ports anew and
reads no output. -/
theorem failingTransactionLeavesNoTrace : Obligations.FailingTransactionLeavesNoTrace := by
  intro s u t rest hstep herr hpending hown hgo
  obtain ⟨-, rest', p, -, -, -, hrun⟩ := step_cases hstep
  obtain ⟨e, rfl⟩ := eq_raiseError_of_err hrun herr
  obtain rfl : rest' = t :: rest := hpending
  have hh : haltingError (raiseError e (present p (t :: rest) s)) = none := haltingError_undefinedFault hgo
  have hh' : haltingError { s with pending := t :: rest } = none := haltingError_undefinedFault hgo
  have hsample : t.sample (raiseError e (present p (t :: rest) s)) = t.sample { s with pending := t :: rest } :=
    Transaction.sample_of_own hown rfl
  cases hq : t.sample { s with pending := t :: rest } with
  | none => rw [step_of_sample_none hh rfl (hsample.trans hq), step_of_sample_none hh' rfl hq]
  | some q =>
    rw [step_of_sample hh rfl (hsample.trans hq), step_of_sample hh' rfl hq]
    exact runSampled_respond { err := some e } (present q rest s)

/-! ## Blocks of different cores (R256) -/

theorem System.step_cases {k : Nat} {sys a : System} (h : System.step k sys = .next a) :
    ∃ s s', sys[k]? = some s ∧ Machine.step s = .next s' ∧ a = sys.set k s' := by
  unfold System.step at h
  split at h
  · cases h
  · next s hs =>
    split at h
    · next s' hs' =>
      cases h
      exact ⟨s, s', hs, hs', rfl⟩
    · cases h
    · cases h

theorem System.step_of_block {k : Nat} {sys : System} {s s' : State} (hs : sys[k]? = some s)
    (h : Machine.step s = .next s') : System.step k sys = .next (sys.set k s') := by
  simp [System.step, hs, h]

/-- Settles O28: each step replaces one block, and replacing two blocks commutes. -/
theorem blocksOfDifferentCoresAreIndependent : Obligations.BlocksOfDifferentCoresAreIndependent := by
  intro sys a b j k hjk ha hb
  obtain ⟨s, s', hs, hs', rfl⟩ := System.step_cases ha
  obtain ⟨u, u', hu, hu', rfl⟩ := System.step_cases hb
  rw [List.getElem?_set_ne hjk] at hu
  refine ⟨fun m hm => List.getElem?_set_ne hm.symm, _, System.step_of_block hu hu', ?_⟩
  rw [List.set_comm _ _ hjk]
  exact System.step_of_block (by rw [List.getElem?_set_ne hjk.symm, hs]) hs'

end Sys2Proof.Machine
end

section
/-! SUPPORT. Reset, the run and its caller (spec/70_reset_and_hazards.md R271, R273, R275, R276): how many steps a run
can make, and when a step is refused. -/

namespace Sys2Proof.Machine

open Sys2Proof.Claims

/-! ## Reset (R271) -/

/-- Settles O16: every field of the reset state is written out, and the `nzcv` output packs the register. -/
theorem resetLeavesSpecifiedState : Obligations.ResetLeavesSpecifiedState :=
  ⟨fun p => ⟨rfl, rfl, rfl, rfl, rfl, rfl, rfl, rfl, packFlags_eq_flagSet p.resetNzcv⟩, rfl, rfl⟩

/-! ## A command and the outputs before it (R275) -/

/-- Settles O15: other outputs on the ports are another answer before the command, and no command reads it. -/
theorem commandsIgnoreEarlierOutputs : Obligations.CommandsIgnoreEarlierOutputs :=
  fun i s o => exec_respond_irrelevant i o s

/-! ## The length of a run (R273) -/

theorem step_of_no_transaction {s : State} (hh : haltingError s = none) (hp : s.pending = []) :
    step s = .refused .noTransaction := by
  simp [step, runNext, hh, hp]

/-- Each step of a run takes one transaction off the list. -/
theorem pending_of_run (k : Nat) : ∀ {s s' : State}, Sys2Proof.core.run k s = .next s' →
    k ≤ s.pending.length ∧ s'.pending = s.pending.drop k := by
  induction k with
  | zero =>
    intro s s' h
    rw [run_zero h]
    exact ⟨Nat.zero_le _, rfl⟩
  | succ k ih =>
    intro s s' h
    obtain ⟨t, ht, hrun⟩ := run_succ_cases h
    obtain ⟨hlength, hdrop⟩ := ih hrun
    obtain ⟨-, tx, hpending, -⟩ := stepTakesOneTransaction s t ht
    rw [hpending]
    exact ⟨Nat.succ_le_succ hlength, hdrop⟩

/-- Settles O10: `pending_of_run`, and a step with an empty list. -/
theorem runEndsWithTheTransactions : Obligations.RunEndsWithTheTransactions :=
  ⟨fun k _ _ h => pending_of_run k h, fun _ hh hp => step_of_no_transaction hh hp⟩

/-! ## A port driven from an output without a value (R41, R42, R276) -/

theorem emptyWord_iff {d : WordDrive} {s : State} : emptyWord d s ↔ d.sample s = none := by
  cases d <;> simp [emptyWord]

theorem emptyFlags_iff {d : FlagDrive} {s : State} : emptyFlags d s ↔ d.sample s = none := by
  cases d <;> simp [emptyFlags]

/-- Where a command comes to compute, a port it reads is empty exactly when its ports cannot be taken over. -/
theorem readsEmptyOutput_of_ok {t : Transaction} {s : State} {i : Instr} (hd : decode t.cmd = .ok i)
    (he : argumentError i = none) : readsEmptyOutput t s ↔ takePorts (portUse i) t s = none := by
  rw [takePorts_eq_none]
  simp only [readsEmptyOutput, emptyWord_iff, emptyFlags_iff]
  constructor
  · rintro ⟨j, hj, -, hempty⟩
    cases hd.symm.trans hj
    exact hempty
  · exact fun hempty => ⟨i, hd, he, hempty⟩

/-- A transaction that ends in an error before anything is computed reads no port, and so no empty one. -/
theorem sample_eq_none_iff {t : Transaction} {s : State} : t.sample s = none ↔ readsEmptyOutput t s := by
  have hunread (h : portsRead t.cmd = {}) : t.sample s ≠ none := by
    obtain ⟨p, hp⟩ := Transaction.sample_of_unread (s := s) h
    simp [hp]
  cases hd : decode t.cmd with
  | error e => exact iff_of_false (hunread (portsRead_of_error hd)) fun ⟨_, hj, _⟩ => nomatch hd.symm.trans hj
  | ok i =>
    cases he : argumentError i with
    | some e =>
      refine iff_of_false (hunread (portsRead_of_argumentError hd he)) fun ⟨j, hj, hnone, _⟩ => ?_
      cases hd.symm.trans hj
      exact nomatch he.symm.trans hnone
    | none => rw [readsEmptyOutput_of_ok hd he, Transaction.sample, portsRead_of_ok hd he]

theorem runSampled_ne_refused (s : State) (r : Refusal) : runSampled s ≠ .refused r := by
  obtain ⟨t, ht, -⟩ := runSampled_completes s
  simp [ht]

/-- A step refuses for want of a value exactly when its transaction cannot be sampled, for what it runs never refuses. -/
theorem step_refused_iff {s : State} {t : Transaction} {rest : List Transaction} (hh : haltingError s = none)
    (hp : s.pending = t :: rest) : step s = .refused .outputHasNoValue ↔ readsEmptyOutput t s := by
  rw [← sample_eq_none_iff]
  cases ht : t.sample s with
  | none => simp [step_of_sample_none hh hp ht]
  | some p => simp [step_of_sample hh hp ht, runSampled_ne_refused]

/-- A port that carries a value is taken over as that value, read or not. -/
theorem eq_of_takePort {n : Nat} {read : Bool} {carried : Option (BitVec n)} {x v : BitVec n}
    (h : takePort read carried = some x) (hv : carried = some v) : x = v := by
  rw [hv, takePort_some] at h
  exact (Option.some.inj h).symm

/-- A command that completes or raises without `fvalid` in its row of the table leaves `fout` without a value (R42). -/
theorem fout_eq_none {i : Instr} {s u : State} (hbits : (validBits s.params i).2.2 = false)
    (h : exec i s = .next u) : u.out.fout = none := by
  cases he : argumentError i with
  | some e =>
    cases (exec_of_argumentError he).symm.trans h
    rfl
  | none =>
    obtain ⟨t, ht, -, hvalid⟩ := exec_of_no_argumentError s he
    cases ht.symm.trans h
    rw [← hvalid] at hbits
    simpa [OutPorts.fvalid] using hbits

/-- A COMMIT of `fout` reads `fout`, and without a value there it is refused (R232, U11). -/
theorem step_commit_of_empty_fout {u : State} {t : Transaction} {rest : List Transaction} (hfout : u.out.fout = none)
    (hp : u.pending = t :: rest) (hcmd : t.cmd = 0x500000#24) (hfin : t.fin = .fout) (hh : haltingError u = none) :
    step u = .refused .outputHasNoValue := by
  have hd : decode t.cmd = .ok .commit := hcmd ▸ decode_commit
  rw [step_refused_iff hh hp, readsEmptyOutput_of_ok hd rfl, takePorts_eq_none]
  simp [portUse, hfin, hfout]

/-- Settles O11: `step_refused_iff`; otherwise the sampled ports carry what drives them; and the commands listed have
no candidate set to commit. -/
theorem callerNeverDrivesFromAnEmptyOutput : Obligations.CallerNeverDrivesFromAnEmptyOutput := by
  refine ⟨fun s t rest hh hp => ⟨step_refused_iff hh hp, fun hreads => ?_⟩, fun s u i t rest hi h => ?_⟩
  · obtain ⟨p, hsample⟩ := Option.ne_none_iff_exists'.mp (mt sample_eq_none_iff.mp hreads)
    obtain ⟨hcmd, himm12, hrn, hrm, hrs, hra, hrdhi, hrdlo, hfin⟩ := takePorts_eq_some hsample
    exact ⟨p, step_of_sample hh hp hsample, hcmd, himm12,
      fun v => ⟨eq_of_takePort hrn, eq_of_takePort hrm, eq_of_takePort hrs, eq_of_takePort hra,
        eq_of_takePort hrdhi, eq_of_takePort hrdlo⟩,
      fun f => eq_of_takePort hfin⟩
  · have hbits : (validBits s.params i).2.2 = false := by
      rcases hi with rfl | rfl | rfl | ⟨rfl, hmls⟩ | ⟨w, a, b, rfl⟩ | ⟨w, a, b, rfl⟩ | rfl
      case inr.inr.inr.inl => exact hmls
      all_goals rfl
    have hfout : u.out.fout = none := fout_eq_none hbits h
    exact ⟨by simp [OutPorts.fvalid, hfout], hfout, step_commit_of_empty_fout hfout⟩

end Sys2Proof.Machine
end

section
/-! SUPPORT. Where the stored C and V reach (spec/70_reset_and_hazards.md R272): operand 2 and the carry-in first, then
each command with other stored flags. -/

namespace Sys2Proof.Machine

open Sys2Proof.Claims

/-! ## Operand 2 with another carry-in (R111, R118, R122, R125) -/

theorem shiftC_ignores_carryIn {type : ShiftType} {n : Nat} (h : n ≠ 0) (x : Word) (c c' : Bool) :
    shiftC x type n c' = shiftC x type n c := by
  cases type <;> simp only [shiftC, if_neg h]

/-- Only RRX shifts the carry-in into the value. -/
theorem shiftC_value_ignores_carryIn {type : ShiftType} {n : Nat} (h : ¬(type = .rotateRight ∧ n = 0)) (x : Word)
    (c c' : Bool) : (shiftC x type n c').value = (shiftC x type n c).value := by
  by_cases hn : n = 0
  · have htype : type ≠ .rotateRight := fun ht => h ⟨ht, hn⟩
    rw [hn, shiftC_zero htype, shiftC_zero htype]
  · rw [shiftC_ignores_carryIn hn]

/-- `s` with other stored flags. -/
def State.withFlags (s : State) (f : Nzcv) : State := { s with nzcv := f }

section Operand

variable {type : ShiftType} {amt : Nat} {s : State} {f : Nzcv}

theorem literalOperand_value_withFlags (h : ¬(type = .rotateRight ∧ amt = 0)) :
    (literalOperand type amt (s.withFlags f)).value = (literalOperand type amt s).value :=
  shiftC_value_ignores_carryIn h _ _ _

theorem literalOperand_withFlags (h : amt ≠ 0) :
    literalOperand type amt (s.withFlags f) = literalOperand type amt s :=
  shiftC_ignores_carryIn h _ _ _

theorem literalOperand_carry (h : type ≠ .rotateRight ∧ amt = 0) : (literalOperand type amt s).carry = s.nzcv.c := by
  rw [literalOperand, h.2, shiftC_zero h.1]

theorem registerOperand_of_zero (h : s.inp.rs.toNat % 256 = 0) : registerOperand type s = ⟨s.inp.rm, s.nzcv.c⟩ := by
  rw [registerOperand, registerAmount_eq_mod, if_pos h]

theorem registerOperand_carry (h : s.inp.rs.toNat % 256 = 0) : (registerOperand type s).carry = s.nzcv.c := by
  rw [registerOperand_of_zero h]

theorem registerOperand_of_ne_zero (h : s.inp.rs.toNat % 256 ≠ 0) :
    registerOperand type s = shiftC s.inp.rm type (s.inp.rs.toNat % 256) s.nzcv.c := by
  rw [registerOperand, registerAmount_eq_mod, if_neg h]

theorem registerOperand_withFlags (h : s.inp.rs.toNat % 256 ≠ 0) :
    registerOperand type (s.withFlags f) = registerOperand type s := by
  rw [registerOperand_of_ne_zero h, registerOperand_of_ne_zero (s := s.withFlags f) h]
  exact shiftC_ignores_carryIn h _ _ _

theorem registerOperand_value_withFlags :
    (registerOperand type (s.withFlags f)).value = (registerOperand type s).value := by
  by_cases h : s.inp.rs.toNat % 256 = 0
  · rw [registerOperand_of_zero h, registerOperand_of_zero (s := s.withFlags f) h]
    rfl
  · rw [registerOperand_withFlags h]

theorem immediateOperand_withFlags (h : s.inp.imm12.toNat / 256 ≠ 0) :
    immediateOperand (s.withFlags f) = immediateOperand s := by
  have hnibble : rotationNibble s.inp.imm12 ≠ 0 := rotationNibble_eq_div s.inp.imm12 ▸ h
  rw [immediateOperand, immediateOperand, processImm12_of_nibble_ne_zero hnibble]
  exact processImm12_of_nibble_ne_zero hnibble _

theorem immediateOperand_value_withFlags : (immediateOperand (s.withFlags f)).value = (immediateOperand s).value :=
  processImm12_value_ignores_carryIn _ _ _

theorem immediateOperand_carry (h : s.inp.imm12.toNat / 256 = 0) : (immediateOperand s).carry = s.nzcv.c := by
  have hnibble : rotationNibble s.inp.imm12 = 0 := (rotationNibble_eq_div s.inp.imm12).trans h
  rw [immediateOperand, processImm12_of_nibble_eq_zero hnibble]

end Operand

/-! ## Answers whose outputs are related -/

/-- Both answers are next states, with outputs that `R` relates. -/
def outputsRelated (R : OutPorts → OutPorts → Prop) (a b : Answer) : Prop :=
  ∃ t u, a = .next t ∧ b = .next u ∧ R t.out u.out

theorem outputs_eq_of_related {i : Instr} {s u : State} (h : outputsRelated Eq (exec i s) (exec i u)) :
    outputs i u = outputs i s ∧ outputs i s ≠ none := by
  obtain ⟨t, v, ht, hv, hout⟩ := h
  simp [outputs_of_exec ht, outputs_of_exec hv, hout]

/-- The same `result` and `resulthi`, whatever the other outputs. -/
def sameResults (o o' : OutPorts) : Prop := o'.result = o.result ∧ o'.resulthi = o.resulthi

section Related

variable {R : OutPorts → OutPorts → Prop} {s u : State} {k : Shifted → State → State}

/-- Answers that use no more of operand 2 than its value are related when the values are one. -/
theorem related_of_value {o o' : Shifted} (hvalue : o'.value = o.value)
    (hk : ∀ v c c', R (k ⟨v, c⟩ s).out (k ⟨v, c'⟩ u).out) : R (k o s).out (k o' u).out := by
  obtain ⟨v, c⟩ := o
  obtain ⟨v', c'⟩ := o'
  cases hvalue
  exact hk v c c'

theorem related_of_operand {o o' : Shifted} (ho : o' = o) (hk : ∀ op2, R (k op2 s).out (k op2 u).out) :
    R (k o s).out (k o' u).out :=
  ho ▸ hk o

theorem withLiteral_related {type : ShiftType} {amt : Nat} (hR : ∀ o, R o o)
    (hk : R (k (literalOperand type amt s) s).out (k (literalOperand type amt u) u).out) :
    outputsRelated R (withLiteral type amt s k) (withLiteral type amt u k) := by
  cases he : checkAmount amt with
  | some e => exact ⟨_, _, withLiteral_of_error he, withLiteral_of_error he, hR _⟩
  | none => exact ⟨_, _, withLiteral_of_ok he, withLiteral_of_ok he, hk⟩

theorem answerField_related (hR : ∀ o, R o o) (r : Except ErrorKind Nat) :
    outputsRelated R (.next (answerField r s)) (.next (answerField r u)) :=
  ⟨_, _, rfl, rfl, answerField_out_eq r s u ▸ hR _⟩

end Related

theorem sameResults_of_completes {i : Instr} {s u : State} {r h : Option Word} {f f' : Option FlagBits}
    (hs : completes i s r h f) (hu : completes i u r h f') : outputsRelated sameResults (exec i s) (exec i u) :=
  ⟨_, _, hs, hu, rfl, rfl⟩

/-! ## MLS by its setting (R216) -/

theorem exec_mls_quiet {s : State} (h : s.params.mlsReportsFlags = false) :
    exec .mls s = .next (respondResult (trunc32 (s.inp.ra.toNat - productUnsigned s)) s) :=
  congrArg Host.Outcome.next (if_neg (ne_true_of_eq_false h))

theorem exec_mls_reporting {s : State} (h : s.params.mlsReportsFlags = true) :
    exec .mls s = .next (answerMultiply (trunc32 (s.inp.ra.toNat - productUnsigned s)) s) :=
  congrArg Host.Outcome.next (if_pos h)

/-! ## Where the stored flags do not reach (R272) -/

/-- Outside ADC, SBC, RSC and RRX the results are the same whatever the stored flags. -/
theorem exec_withFlags_sameResults {i : Instr} (s : State) (f : Nzcv) (h : resultUsesCarry i = false) :
    outputsRelated sameResults (exec i s) (exec i (s.withFlags f)) := by
  have hsame (o : OutPorts) : sameResults o o := ⟨rfl, rfl⟩
  cases i with
  | adc | sbc | rsc | adcRs | sbcRs | rscRs | iAdc | iSbc | iRsc => cases h
  | and | eor | sub | rsb | add | orr | mov | bic | mvn =>
    exact withLiteral_related hsame
      (related_of_value (literalOperand_value_withFlags (of_decide_eq_false h)) fun _ _ _ => ⟨rfl, rfl⟩)
  | andRs | eorRs | subRs | rsbRs | addRs | orrRs | movRs | bicRs | mvnRs =>
    exact ⟨_, _, rfl, rfl, related_of_value registerOperand_value_withFlags fun _ _ _ => ⟨rfl, rfl⟩⟩
  | iAnd | iEor | iSub | iRsb | iAdd | iOrr | iMov | iBic | iMvn =>
    exact ⟨_, _, rfl, rfl, related_of_value immediateOperand_value_withFlags fun _ _ _ => ⟨rfl, rfl⟩⟩
  | adrAdd | adrSub =>
    exact ⟨_, _, rfl, rfl, by rw [immediateOperand_value_withFlags]; exact hsame _⟩
  | extractBits | writeBits => exact answerField_related hsame _
  | mls => exact sameResults_of_completes (completes_mls s) (completes_mls (s.withFlags f))
  | mul | mla | umaal | umull | umlal | smull | smlal | countBits => exact sameResults_of_completes rfl rfl
  | commit => exact ⟨_, _, rfl, rfl, hsame _⟩

/-- `s` with another stored C. -/
def State.withC (s : State) (c : Bool) : State := s.withFlags { s.nzcv with c := c }

/-- `s` with another stored V. -/
def State.withV (s : State) (v : Bool) : State := s.withFlags { s.nzcv with v := v }

/-- A command of which neither the result nor the candidate C takes the stored C shows the same whatever that is. -/
theorem exec_withC {i : Instr} {s : State} (c : Bool) (hresult : resultUsesCarry i = false)
    (hfout : carryReachesFout s i = false) : outputsRelated Eq (exec i s) (exec i (s.withC c)) := by
  cases i with
  | adc | sbc | rsc | adcRs | sbcRs | rscRs | iAdc | iSbc | iRsc => cases hresult
  | mul | mla | umull | umlal | smull | smlal => cases hfout
  | and | eor | orr | mov | bic | mvn =>
    have hamt := fun hzero =>
      of_decide_eq_false hfout ⟨fun htype => of_decide_eq_false hresult ⟨htype, hzero⟩, hzero⟩
    exact withLiteral_related (fun _ => rfl) (related_of_operand (literalOperand_withFlags hamt) fun _ => rfl)
  | sub | rsb | add =>
    exact withLiteral_related (fun _ => rfl)
      (related_of_value (literalOperand_value_withFlags (of_decide_eq_false hresult)) fun _ _ _ => rfl)
  | andRs | eorRs | orrRs | movRs | bicRs | mvnRs =>
    exact ⟨_, _, rfl, rfl, related_of_operand (registerOperand_withFlags (of_decide_eq_false hfout)) fun _ => rfl⟩
  | subRs | rsbRs | addRs =>
    exact ⟨_, _, rfl, rfl, related_of_value registerOperand_value_withFlags fun _ _ _ => rfl⟩
  | iAnd | iEor | iOrr | iMov | iBic | iMvn =>
    exact ⟨_, _, rfl, rfl, related_of_operand (immediateOperand_withFlags (of_decide_eq_false hfout)) fun _ => rfl⟩
  | iSub | iRsb | iAdd =>
    exact ⟨_, _, rfl, rfl, related_of_value immediateOperand_value_withFlags fun _ _ _ => rfl⟩
  | adrAdd | adrSub => exact ⟨_, _, rfl, rfl, by rw [State.withC, immediateOperand_value_withFlags]; rfl⟩
  | mls => exact ⟨_, _, exec_mls_quiet hfout, exec_mls_quiet (s := s.withC c) hfout, rfl⟩
  | extractBits | writeBits => exact answerField_related (fun _ => rfl) _
  | umaal | commit | countBits => exact ⟨_, _, rfl, rfl, rfl⟩

/-- A command whose candidate V is not the stored V shows the same whatever that is. -/
theorem exec_withV {i : Instr} {s : State} (v : Bool) (h : overflowReachesFout s.params i = false) :
    outputsRelated Eq (exec i s) (exec i (s.withV v)) := by
  cases i with
  | sub | rsb | add | adc | sbc | rsc => exact withLiteral_related (fun _ => rfl) rfl
  | extractBits | writeBits => exact answerField_related (fun _ => rfl) _
  | mls => exact ⟨_, _, exec_mls_quiet h, exec_mls_quiet (s := s.withV v) h, rfl⟩
  | subRs | rsbRs | addRs | adcRs | sbcRs | rscRs | iSub | iRsb | iAdd | iAdc | iSbc | iRsc | adrAdd | adrSub | umaal
  | commit | countBits => exact ⟨_, _, rfl, rfl, rfl⟩
  | _ => cases h

/-- The commands that the ports alone determine take neither the stored C nor the stored V. -/
theorem flags_unused_of_portsDetermine {i : Instr} {s : State} (h : portsDetermine s.params i = true) :
    resultUsesCarry i = false ∧ carryReachesFout s i = false ∧ overflowReachesFout s.params i = false := by
  cases i with
  | add | sub | rsb => exact ⟨decide_eq_false (of_decide_eq_true h), rfl, rfl⟩
  | mls =>
    have hquiet : s.params.mlsReportsFlags = false := by simpa [portsDetermine] using h
    exact ⟨rfl, hquiet, hquiet⟩
  | addRs | subRs | rsbRs | iAdd | iSub | iRsb | adrAdd | adrSub | umaal | extractBits | writeBits | countBits
  | commit => exact ⟨rfl, rfl, rfl⟩
  | _ => cases h

/-- Replacing all four stored flags is replacing C, then V, then N and Z, which no command reads (R23). -/
theorem outputs_withFlags {i : Instr} {s : State} (f : Nzcv) (h : portsDetermine s.params i = true) :
    outputs i (s.withFlags f) = outputs i s ∧ outputs i s ≠ none := by
  obtain ⟨hresult, hcarry, hoverflow⟩ := flags_unused_of_portsDetermine h
  obtain ⟨hc, hne⟩ := outputs_eq_of_related (exec_withC f.c hresult hcarry)
  obtain ⟨hv, -⟩ := outputs_eq_of_related (exec_withV (s := s.withC f.c) f.v hoverflow)
  obtain ⟨-, hnz⟩ := commandsReadOnlyCAndV i ((s.withC f.c).withV f.v) f.n f.z
  exact ⟨(hnz.trans hv).trans hc, hne⟩

/-! ## Where the stored flags do reach (R127, R211, R272) -/

theorem overflowReachesFout_of_carry {i : Instr} {s : State} (h : carryReachesFout s i = true) :
    overflowReachesFout s.params i = true := by
  cases i with
  | mls => exact h
  | and | eor | orr | mov | bic | mvn | andRs | eorRs | orrRs | movRs | bicRs | mvnRs | iAnd | iEor | iOrr | iMov
  | iBic | iMvn | mul | mla | umull | umlal | smull | smlal => rfl
  | _ => cases h

/-- `i` answers on `s` a candidate set with the stored V in it, and with the stored C where that is listed too. -/
def keepsStoredFlags (i : Instr) (s : State) : Prop :=
  ∃ t g, exec i s = .next t ∧ t.out.fout = some (packFlags g) ∧ g.v = s.nzcv.v ∧
    (carryReachesFout s i = true → g.c = s.nzcv.c)

section Kept

variable {i : Instr} {s : State}

theorem keepsStoredFlags_of_bitwise {r : Word} {o : Shifted} (h : exec i s = .next (answerBitwise r o s))
    (hcarry : carryReachesFout s i = true → o.carry = s.nzcv.c) : keepsStoredFlags i s :=
  ⟨_, _, h, rfl, rfl, hcarry⟩

theorem keepsStoredFlags_of_answerMultiply {r : Word} (h : exec i s = .next (answerMultiply r s)) :
    keepsStoredFlags i s :=
  ⟨_, _, h, rfl, rfl, fun _ => rfl⟩

theorem keepsStoredFlags_of_respondPairFlags {p : BitVec 64} (h : exec i s = .next (respondPairFlags p s)) :
    keepsStoredFlags i s :=
  ⟨_, _, h, rfl, rfl, fun _ => rfl⟩

/-- The commands listed for V: the bitwise ones pass the carry-out of operand 2 on, the multiplies both stored flags. -/
theorem exec_keepsStoredFlags (he : argumentError i = none) (h : overflowReachesFout s.params i = true) :
    keepsStoredFlags i s := by
  cases i with
  | and | eor | orr | mov | bic | mvn =>
    exact keepsStoredFlags_of_bitwise (withLiteral_of_ok he) fun hc => literalOperand_carry (of_decide_eq_true hc)
  | andRs | eorRs | orrRs | movRs | bicRs | mvnRs =>
    exact keepsStoredFlags_of_bitwise rfl fun hc => registerOperand_carry (of_decide_eq_true hc)
  | iAnd | iEor | iOrr | iMov | iBic | iMvn =>
    exact keepsStoredFlags_of_bitwise rfl fun hc => immediateOperand_carry (of_decide_eq_true hc)
  | mul | mla => exact keepsStoredFlags_of_answerMultiply rfl
  | mls => exact keepsStoredFlags_of_answerMultiply (exec_mls_reporting h)
  | umull | umlal | smull | smlal => exact keepsStoredFlags_of_respondPairFlags rfl
  | _ => cases h

theorem keepsStoredFlags.bits (h : keepsStoredFlags i s) :
    ∃ o c, outputs i s = some o ∧ o.fout = some c ∧ c.getLsbD 0 = s.nzcv.v ∧
      (carryReachesFout s i = true → c.getLsbD 1 = s.nzcv.c) := by
  obtain ⟨t, g, ht, hfout, hv, hc⟩ := h
  obtain ⟨-, -, hbit1, hbit0⟩ := packFlags_getLsbD g
  exact ⟨_, _, outputs_of_exec ht, hfout, hbit0.trans hv, fun h => hbit1.trans (hc h)⟩

end Kept

/-- Settles O21: the results by `exec_withFlags_sameResults`; C, V, and all four flags where they do not reach; and the
candidate set where C or V is listed as reaching it. -/
theorem storedFlagsReachOnlyListedOutputs : Obligations.StoredFlagsReachOnlyListedOutputs := by
  intro i s f b
  refine ⟨fun h => ?results, fun h h' => outputs_eq_of_related (exec_withC b h h'),
    fun h => outputs_eq_of_related (exec_withV b h), fun h he => ?carry, fun h he => ?overflow, outputs_withFlags f⟩
  case results =>
    obtain ⟨t, u, ht, hu, hsame⟩ := exec_withFlags_sameResults s f h
    exact ⟨_, _, outputs_of_exec ht, outputs_of_exec hu, hsame⟩
  case carry =>
    obtain ⟨o, c, ho, hfout, -, hc⟩ := (exec_keepsStoredFlags he (overflowReachesFout_of_carry h)).bits
    exact ⟨o, c, ho, hfout, hc h⟩
  case overflow =>
    obtain ⟨o, c, ho, hfout, hv, -⟩ := (exec_keepsStoredFlags he h).bits
    exact ⟨o, c, ho, hfout, hv⟩

end Sys2Proof.Machine
end

section
/-! SUPPORT. The command words the syntax table prints (spec/30_encoding.md R81). -/

namespace Sys2Proof.Machine

/-- Settles O5: each printed word is the encoding of the command beside it, which fits its format; the decoder inverts
the encoder (R76). -/
theorem printedWordsDecode : Obligations.PrintedWordsDecode := by
  unfold Obligations.PrintedWordsDecode
  and_intros <;> exact decode_of_encode_eq rfl rfl

end Sys2Proof.Machine
end
